-- ==== Sys2Proof/Word.lean ====
section
/-! DEFINITION. The two widths PCFE has: a word is 32 bits (rule R8, XLEN), a byte is 8 bits (rule R9).
Both are unsigned, there is no signed quantity anywhere in PCFE (rule R9). -/

namespace Sys2Proof

/-- A word: 32 bits, unsigned (rule R8, rule R9). -/
abbrev Word := BitVec 32

/-- A byte: 8 bits, unsigned (rule R9). -/
abbrev Byte := BitVec 8

end Sys2Proof
end

