-- ==== Sys2Proof/Config.lean ====
section
/-! DEFINITION. What is fixed for the machine: the constants of rule R8, the bus bases no rule reads, and the
free values that stand for a read of `undef` (rule R16). A constant declared `opaque` has no body: no proof can
see which value it is, so whatever is proved holds for every value. -/

namespace Sys2Proof.Config

/-- `LEN_MAX`, the largest legal `length`: 2^31 - 1 (rule R8). -/
def lenMax : Nat := 0x7FFFFFFF

/-- `NREG`, the number of register indices, 0 to 7 (rule R8). -/
def nreg : Nat := 8

/-- `REG_BASE`, where a platform maps the register file: OPEN, read by no rule (rule R8, rule R51; log entry 11). -/
opaque regBase : Nat

/-- `DBUF_BASE`, where a platform maps DBUF: OPEN, read by no rule (rule R8, rule R51; log entry 11). -/
opaque dbufBase : Nat

/-- The bus address rule R51 suggests, and no platform need follow, for register index `i`. -/
def suggestedRegAddress (i : Nat) : Nat := regBase + 4 * i

/-- The bus address rule R51 suggests, and no platform need follow, for DBUF cell `off`. -/
def suggestedDbufAddress (off : Nat) : Nat := dbufBase + off

/-- FREE VALUE: the word the `n`-th draw gives a host that reads an `undef` register: "some value of the
location's width, not necessarily the same value twice" (rule R16, rule R176; log entry 3). -/
opaque freeWord : Nat → Word

/-- FREE VALUE: the byte the `n`-th draw gives a host that reads an `undef` DBUF cell (rule R16, rule R178;
log entry 3). -/
opaque freeByte : Nat → Byte

end Sys2Proof.Config
end

