-- ==== Sys2Proof/Machine/State.lean ====
section
/-! DEFINITION. The state of PCFE as plain data: the ten components of rule R20, the parameters of the run
(rule R8), and the model's own record of the host's port (log entry 1). -/

namespace Sys2Proof.Machine

/-- The memory DBUF: (cell, byte) pairs, cells strictly rising. A cell that is not listed is `undef`: it holds
no value (rule R16, rule R35; log entry 4). -/
abbrev Memory := List Host.Cell

/-- One step the host issues (rule R175, rule R220), or an access the spec gives no meaning (rule R204). -/
inductive HostStep
  /-- `RegRead(i)` (rule R176) -/
  | regRead (i : Nat)
  /-- `RegWrite(i, v)` (rule R177); index 0 issues the command word `v` (rule R78) -/
  | regWrite (i : Nat) (v : Word)
  /-- `BufRead(off)`, `off` below 2^32 (rule R178) -/
  | bufRead (off : Word)
  /-- `BufWrite(off, b)`, `off` below 2^32 (rule R179) -/
  | bufWrite (off : Word) (b : Byte)
  /-- the reset event (rule R220) -/
  | reset
  /-- a register access narrower than 32 bits: no meaning (rule R56) -/
  | regNarrow
  /-- a DBUF access wider than one byte: no meaning (rule R57) -/
  | bufWide
  /-- any step issued by a second host: no meaning (rule R204, rule R237) -/
  | secondHost
  deriving DecidableEq, Repr

/-- What a host read returns: a word from a register or a byte from DBUF (rule R58). -/
inductive Reply
  | word (w : Word)
  | byte (b : Byte)
  deriving DecidableEq, Repr

/-- The parameters of a run: fixed at launch, changed by no step (rule R8, rule R20; log entry 2). -/
structure Params where
  /-- `IN`: everything the input source will ever deliver, in order -/
  input : List Byte
  /-- `OUT_LIMIT`: how many bytes the output sink accepts; `none` is the spec's ∞ -/
  outLimit : Option Nat
  /-- `DBUF_CAP`: the number of cells of DBUF -/
  dbufCap : Nat
  deriving DecidableEq, Repr

/-- The MODEL's own record of the host's port (log entry 1). No rule of the spec names these fields. -/
structure HostPort where
  /-- the host steps issued and not yet performed, oldest first -/
  pending : List HostStep
  /-- what the last read returned, `none` before the first -/
  reply : Option Reply
  /-- how many free values have been drawn (log entry 3) -/
  drawn : Nat
  deriving DecidableEq, Repr

/-- The whole state: rule R20's tuple, then the parameters, then the host's port. `none` in a record register is
the spec's own `undef` (rule R16, rule R20). -/
structure State where
  /-- `LENGTH` (rule R22) -/
  lengthReg : Option Word
  /-- `TYPE` (rule R23) -/
  typeReg : Option Word
  /-- `CRC` (rule R24) -/
  crcReg : Option Word
  /-- `CRCCALC` (rule R25) -/
  crcCalc : Word
  /-- `STATUS.ERR` (rule R29) -/
  err : BitVec 4
  /-- `STATUS.MATCH` (rule R30) -/
  matched : Bool
  /-- `STATUS.END` (rule R31) -/
  ended : Bool
  /-- `DBUF` (rule R35) -/
  dbuf : Memory
  /-- `ipos`, how many bytes of `IN` are consumed (rule R36) -/
  ipos : Nat
  /-- `OUT`, the bytes emitted so far (rule R37) -/
  out : List Byte
  /-- the parameters of the run (rule R8) -/
  par : Params
  /-- the model's record of the host's port -/
  host : HostPort
  deriving DecidableEq, Repr

/-- Why the machine could stop with a fault: never. An error of PCFE is a next state with `STATUS.ERR` written
(rule R193), and no step is stuck (rule R204), so this type has no constructor (log entry 7). -/
inductive Fault
  deriving DecidableEq, Repr

/-- Why the model gives a step no meaning. Every one of them is safe: the model stops where the spec gives no
effect. -/
inductive Refusal
  /-- an instruction that has no meaning yet; raised only by an arm of `exec`, and there is none left; safe -/
  | notModelled (mnemonic : String)
  /-- CRCCALC or WRCHUNK would read an `undef` DBUF cell (rule R16, rule R146, rule R161, rule R232; log entry 5);
  raised by `execCrccalc` and `execWrchunk`; safe -/
  | undefCell
  /-- CRCCALC or WRCHUNK would read an `undef` record register, which no reachable state lets happen (rule R146,
  rule R161; log entry 6); raised by `execCrccalc` and `execWrchunk`; safe -/
  | undefRecord
  /-- a register index above 7: such an access does not exist (rule R175; log entry 10); raised by `regRead` and
  `regWrite`; safe -/
  | noRegister (i : Nat)
  /-- a register access narrower than 32 bits (rule R56; log entry 10); raised by `perform`; safe -/
  | narrowRegister
  /-- a DBUF access wider than one byte (rule R57; log entry 10); raised by `perform`; safe -/
  | wideBuffer
  /-- a step issued by a second host (rule R204, rule R237; log entry 10); raised by `perform`; safe -/
  | secondHost
  deriving DecidableEq, Repr

/-- The three outcomes of a step of this machine. -/
abbrev Result := Host.Outcome State Fault Refusal

/-- The launch state of a run with the parameters `p`: PCFE in its reset state, `ipos = 0` and `OUT` empty (rule R39,
rule R223). The host has issued nothing yet (DESIGN CHOICE, log entry 1). -/
def State.launch (p : Params) : State where
  lengthReg := some 0
  typeReg := some 0
  crcReg := some 0
  crcCalc := 0
  err := 0
  matched := false
  ended := false
  dbuf := []
  ipos := 0
  out := []
  par := p
  host := { pending := [], reply := none, drawn := 0 }

/-- The machine right after reset at launch. The parameters are OPEN in the spec (rule R8), so no statement rests on
them: here `IN` is empty, `OUT_LIMIT` is ∞ and `DBUF_CAP` is 64 (DESIGN CHOICE, log entry 2). -/
def State.reset : State := State.launch { input := [], outLimit := none, dbufCap := 64 }

end Sys2Proof.Machine
end

