-- ==== Sys2Proof/Syntax.lean ====
section
/-! DEFINITION. The command set, one constructor per row of the opcode table (rule R76). No command has an
operand field: every operand is implicit (rule R77). -/

namespace Sys2Proof

/-- The six commands of PCFE, in the order of rule R76. -/
inductive Instr
  /-- read 8 bytes of the input stream and compare them with the signature (rule R101) -/
  | sigdet
  /-- consume the input stream until the last 8 bytes consumed are the signature (rule R106) -/
  | sigscan
  /-- append the signature to the output stream (rule R111) -/
  | sigwr
  /-- read one chunk record from the input stream (rule R121) -/
  | rdchunk
  /-- compute the checksum of the current record (rule R147) -/
  | crccalc
  /-- append the current record to the output stream (rule R162) -/
  | wrchunk
  deriving DecidableEq, Repr

end Sys2Proof
end

