-- ==== Sys2Proof/WellFormed.lean ====
section
/-! DEFINITION. What is well formed: a command (always, for want of an operand), a host step, and the parameters
of a run. -/

namespace Sys2Proof

/-- A command has no operand field, no immediate, no register selector and no mode field (rule R77), so every
term of `Instr` is well formed. -/
def Instr.wellFormed : Instr → Bool
  | .sigdet | .sigscan | .sigwr | .rdchunk | .crccalc | .wrchunk => true

end Sys2Proof

namespace Sys2Proof.Machine

/-- A host step the spec gives a meaning: a register index is 0 to 7 (rule R175), a register access is a whole
word (rule R56), a DBUF access is one byte (rule R57), and there is one host (rule R237). -/
def HostStep.wellFormed : HostStep → Bool
  | .regRead i => decide (i < Config.nreg)
  | .regWrite i _ => decide (i < Config.nreg)
  | .bufRead _ => true
  | .bufWrite _ _ => true
  | .reset => true
  | .regNarrow => false
  | .bufWide => false
  | .secondHost => false

/-- The parameters of a run are in their range: `DBUF_CAP` is at most `LEN_MAX` (rule R8). -/
def Params.wellFormed (p : Params) : Bool := decide (p.dbufCap ≤ Config.lenMax)

end Sys2Proof.Machine
end

