-- ==== Sys2Proof/Decode.lean ====
section
/-! DEFINITION. The command word (rule R75): format `C0`, `zero` in bits [31:8] and `opcode` in bits [7:0].
Decoding is total on the 2^32 words; a reserved word is rejected by the name of the field that makes it so. -/

namespace Sys2Proof

/-- Why a word is reserved (rule R79). -/
inductive Reserved
  /-- a nonzero bit in [31:8] -/
  | zeroField
  /-- `opcode` 0x00 or 0x07 to 0xFF -/
  | opcode
  deriving DecidableEq, Repr

/-- What a word written to CMD decodes to. -/
inductive Decoded
  | command (i : Instr)
  | reserved (why : Reserved)
  deriving DecidableEq, Repr

/-- The field `zero` of format `C0`, bits [31:8] (rule R75). -/
def zeroOf (w : Word) : BitVec 24 := w.extractLsb' 8 24

/-- The field `opcode` of format `C0`, bits [7:0] (rule R75). -/
def opcodeOf (w : Word) : Byte := w.extractLsb' 0 8

/-- The command an opcode selects (rule R76); every other opcode is reserved (rule R79). -/
def commandOf (op : Byte) : Option Instr :=
  if op = 0x01#8 then some .sigdet
  else if op = 0x02#8 then some .sigscan
  else if op = 0x03#8 then some .sigwr
  else if op = 0x04#8 then some .rdchunk
  else if op = 0x05#8 then some .crccalc
  else if op = 0x06#8 then some .wrchunk
  else none

/-- The decode of rule R78: `zero` is tested before `opcode`. -/
def decode (w : Word) : Decoded :=
  if zeroOf w ≠ 0 then .reserved .zeroField
  else
    match commandOf (opcodeOf w) with
    | some i => .command i
    | none => .reserved .opcode

/-- The opcode of a command (rule R76). -/
def opcodeFor : Instr → Byte
  | .sigdet => 0x01#8
  | .sigscan => 0x02#8
  | .sigwr => 0x03#8
  | .rdchunk => 0x04#8
  | .crccalc => 0x05#8
  | .wrchunk => 0x06#8

/-- The whole command word of a command: 24 zero bits, then the opcode (rule R75, rule R76). -/
def encode (i : Instr) : Word := 0#24 ++ opcodeFor i

/-- What the decoder reads from an instruction of `nbits` bits numbered as the opcode table numbers them. A
command is one 32-bit word and there is no other length (rule R75), so a number that does not fit one word is
no command. -/
def decodeTableWord (nbits w : Nat) : Option Instr :=
  let bits := w % 2 ^ nbits
  if bits < 2 ^ 32 then
    match decode (BitVec.ofNat 32 bits) with
    | .command i => some i
    | .reserved _ => none
  else none

/-! Each command's word written out from rule R76's table: 24 zero bits, then the opcode bit by bit. -/

theorem decode_sigdet : decode (0#24 ++ 0b00000001#8) = .command .sigdet := by decide
theorem decode_sigscan : decode (0#24 ++ 0b00000010#8) = .command .sigscan := by decide
theorem decode_sigwr : decode (0#24 ++ 0b00000011#8) = .command .sigwr := by decide
theorem decode_rdchunk : decode (0#24 ++ 0b00000100#8) = .command .rdchunk := by decide
theorem decode_crccalc : decode (0#24 ++ 0b00000101#8) = .command .crccalc := by decide
theorem decode_wrchunk : decode (0#24 ++ 0b00000110#8) = .command .wrchunk := by decide

end Sys2Proof
end

