-- ==== Sys2Proof/Machine/Operands.lean ====
section
/-! DEFINITION. The operands of the commands. All are implicit (rule R77): the constant `SIG`, the numeric wire
fields and their byte order (rule R10, rule R83), the letters of a type (rule R14), and the cells of DBUF that
belong to the current record (rule R35). -/

namespace Sys2Proof.Machine

/-- `SIG`, the 8 bytes of the signature in wire order (rule R15, rule R80). -/
def sig : List Byte := [0x89#8, 0x50#8, 0x4E#8, 0x47#8, 0x0D#8, 0x0A#8, 0x1A#8, 0x0A#8]

/-- `be32`: the first byte on the wire is the most significant (rule R10, rule R52). -/
def be32 (b0 b1 b2 b3 : Byte) : Word := b0 ++ b1 ++ b2 ++ b3

/-- `byte_k(v)`: byte `k` of the big-endian spelling of `v`, for `k` in 0 to 3 (rule R10). -/
def byteOf (k : Nat) (v : Word) : Byte := v.extractLsb' (24 - 8 * k) 8

/-- The four bytes a word is emitted as, in wire order (rule R83). -/
def wireBytes (v : Word) : List Byte := [byteOf 0 v, byteOf 1 v, byteOf 2 v, byteOf 3 v]

/-- `isalpha`: `A` to `Z` or `a` to `z` (rule R14). PRESUMED: the spec marks the two ranges as general knowledge,
GK2 (log entry 13). -/
def isAlpha (b : Byte) : Bool :=
  decide (0x41 ≤ b.toNat ∧ b.toNat ≤ 0x5A) || decide (0x61 ≤ b.toNat ∧ b.toNat ≤ 0x7A)

/-- `MemRead(off, 1)`: the byte in cell `off`, or `none` where the cell is `undef` (rule R11, rule R16). -/
def Memory.read : Memory → Nat → Option Byte
  | [], _ => none
  | (c, v) :: rest, off => if off = c then some v else Memory.read rest off

/-- Cells 0 to `n - 1` of DBUF in wire order, each a byte or `undef` (rule R35). -/
def cells (n : Nat) (m : Memory) : List (Option Byte) := (List.range n).map (fun j => m.read j)

/-- The bytes of a list of cells when every one of them is defined. -/
def allDefined : List (Option Byte) → Option (List Byte)
  | [] => some []
  | none :: _ => none
  | some b :: rest => (allDefined rest).map (b :: ·)

end Sys2Proof.Machine
end

