-- ==== Sys2Proof/Machine/Flags.lean ====
section
/-! DEFINITION. The status register and the flags: the error codes (rule R191), the word STATUS reads as
(rule R28), MATCH (rule R30) and END (rule R31). -/

namespace Sys2Proof.Machine

/-- The errors, in the order of rule R191. -/
inductive ErrorName
  | truncatedHeader
  | lengthOverflow
  | invalidType
  | truncatedData
  | truncatedCrc
  /-- kept for the numbering and never raised (rule R5) -/
  | invalidPaletteLength
  | signatureNotFound
  | writeFailure
  | allocationFailure
  | illegalCommand
  deriving DecidableEq, Repr

/-- `code(E)`, the value `STATUS.ERR` takes (rule R191). -/
def ErrorName.code : ErrorName → BitVec 4
  | .truncatedHeader => 1#4
  | .lengthOverflow => 2#4
  | .invalidType => 3#4
  | .truncatedData => 4#4
  | .truncatedCrc => 5#4
  | .invalidPaletteLength => 6#4
  | .signatureNotFound => 7#4
  | .writeFailure => 8#4
  | .allocationFailure => 9#4
  | .illegalCommand => 10#4

/-- `T_IEND`, the four letters of the end marker as a word (rule R15). PRESUMED: the spec marks the letters' codes
as general knowledge, GK3 (log entry 13). -/
def typeIend : Word := 0x49454E44#32

/-- END after a successful RDCHUNK that read the type `t`: an exact comparison (rule R31). -/
def endFlagOf (t : Word) : Bool := decide (t = typeIend)

/-- MATCH after a full read of the bytes `bs`: byte for byte equal to `SIG` (rule R102). -/
def matchFlagOf (bs : List Byte) : Bool := decide (bs = sig)

/-- The word STATUS reads as: ERR in [3:0], MATCH in [4], END in [5], zero in [31:6] (rule R28, rule R176). -/
def State.statusWord (s : State) : Word :=
  0#26 ++ BitVec.ofBool s.ended ++ BitVec.ofBool s.matched ++ s.err

end Sys2Proof.Machine
end

