-- ==== Sys2Proof/Machine/Ops.lean ====
section
/-! DEFINITION. The named operations: one setter per component of the state, DBUF's memory, the two streams,
taking an error and the reset that is the only way out of it. -/

namespace Sys2Proof.Machine

/-! ## One write per component -/

def State.setLength (v : Option Word) (s : State) : State := { s with lengthReg := v }
def State.setType (v : Option Word) (s : State) : State := { s with typeReg := v }
def State.setCrc (v : Option Word) (s : State) : State := { s with crcReg := v }
def State.setCrcCalc (v : Word) (s : State) : State := { s with crcCalc := v }
def State.setErr (v : BitVec 4) (s : State) : State := { s with err := v }
def State.setMatched (v : Bool) (s : State) : State := { s with matched := v }
def State.setEnded (v : Bool) (s : State) : State := { s with ended := v }
def State.setDbuf (v : Memory) (s : State) : State := { s with dbuf := v }
def State.setIpos (v : Nat) (s : State) : State := { s with ipos := v }
def State.setOut (v : List Byte) (s : State) : State := { s with out := v }
def State.setHost (v : HostPort) (s : State) : State := { s with host := v }

/-! ## DBUF -/

/-- The canonical form of a memory: cells strictly rising, so no cell is listed twice. (An unlisted cell is
`undef`, which is no byte, so no entry can equal what an unlisted cell reads as.) -/
abbrev Memory.wf (m : Memory) : Prop := m.Pairwise (fun a b => a.1 < b.1)

/-- `MemWrite(off, 1, v)`: cell `off` holds `v` and is defined; no other cell changes (rule R11, rule R179). -/
def Memory.write : Memory → Nat → Byte → Memory
  | [], off, v => [(off, v)]
  | (c, w) :: rest, off, v =>
    if off < c then (off, v) :: (c, w) :: rest
    else if off = c then (off, v) :: rest
    else (c, w) :: Memory.write rest off v

/-- Store the bytes `bs` in the cells `off`, `off + 1`, … in order (rule R127). -/
def Memory.writeRange : Memory → Nat → List Byte → Memory
  | m, _, [] => m
  | m, off, b :: bs => Memory.writeRange (m.write off b) (off + 1) bs

/-- Every cell `undef`: nothing is listed (rule R39, rule R130). -/
def Memory.undef : Memory := []

/-! ## The streams -/

/-- `InByte()`: the next byte of `IN` and the cursor one further, or `none` for `EOS`, which changes nothing
(rule R12, rule R36). -/
def State.inByte (s : State) : Option (Byte × State) :=
  match s.par.input[s.ipos]? with
  | some b => some (b, s.setIpos (s.ipos + 1))
  | none => none

/-- Ask for up to `n` bytes, one `InByte()` at a time, stopping at `EOS`: the bytes that came, and the state
after. A short read has consumed all that remained (rule R101, rule R131). -/
def State.inBytes : Nat → State → List Byte × State
  | 0, s => ([], s)
  | n + 1, s =>
    match s.inByte with
    | none => ([], s)
    | some (b, s') => (b :: (State.inBytes n s').1, (State.inBytes n s').2)

/-- Whether the sink accepts one more byte when it has accepted `n` (rule R12, rule R37). -/
def Params.accepts (p : Params) (n : Nat) : Bool :=
  match p.outLimit with
  | none => true
  | some limit => decide (n < limit)

/-- `OutByte(b)`: `b` appended, or `none` for `fail`, which changes nothing (rule R12, rule R37). -/
def State.outByte (b : Byte) (s : State) : Option State :=
  if s.par.accepts s.out.length then some (s.setOut (s.out ++ [b])) else none

/-! ## Taking an error, and the only way out of it -/

/-- `raise E`: ERR gets the code; whatever the command did before stays done; nothing else is recorded (rule R13,
rule R192, rule R193). -/
def State.raise (e : ErrorName) (s : State) : State := s.setErr e.code

/-- The reset event: LENGTH, TYPE, CRC, CRCCALC, ERR, MATCH and END zero, every DBUF cell `undef` (rule R220).
The streams are not touched (rule R221). There is no other return from an error (rule R195). -/
def State.resetEvent (s : State) : State :=
  { s with
    lengthReg := some 0
    typeReg := some 0
    crcReg := some 0
    crcCalc := 0
    err := 0
    matched := false
    ended := false
    dbuf := Memory.undef }

/-- The sticky error state: while ERR is nonzero a word written to CMD has no effect (rule R78's first arm,
rule R194). Every command and the decode of a reserved word go through this one test (log entry 9). -/
def unlessSticky (s : State) (body : State → Result) : Result :=
  if s.err = 0 then body s else .next s

/-- Emit a sequence of cells one `OutByte` at a time. A cell is read when its turn comes: an `undef` one is
refused there (rule R161; log entry 5). `WriteFailure` at the first byte the sink refuses; the bytes already
appended stay (rule R113, rule R164). -/
def emitCells : List (Option Byte) → State → Result
  | [], s => .next s
  | none :: _, _ => .refused .undefCell
  | some b :: rest, s =>
    match s.outByte b with
    | none => .next (s.raise .writeFailure)
    | some s' => emitCells rest s'

/-- The two length checks CRCCALC and WRCHUNK make before they use LENGTH, in this order (rule R148, rule R163). -/
def lengthCheck (p : Params) (n : Word) : Option ErrorName :=
  if Config.lenMax < n.toNat then some .lengthOverflow
  else if p.dbufCap < n.toNat then some .allocationFailure
  else none

/-! ## What a host read returns -/

/-- A host read returns `r` (rule R176, rule R178). -/
def State.answer (r : Reply) (s : State) : State := s.setHost { s.host with reply := some r }

/-- A host read of an `undef` location: a free value, and a fresh one each time (rule R16; log entry 3). -/
def State.answerFree (r : Nat → Reply) (s : State) : State :=
  s.setHost { s.host with reply := some (r s.host.drawn), drawn := s.host.drawn + 1 }

/-- A host read of a record register: its word, or any word if it is `undef` (rule R176). -/
def State.answerRegister (v : Option Word) (s : State) : State :=
  match v with
  | some w => s.answer (.word w)
  | none => s.answerFree (fun n => .word (Config.freeWord n))

end Sys2Proof.Machine
end

