-- ==== Sys2Proof/Machine/ChunkReader.lean ====
section
/-! DEFINITION. The chunk reader RDCHUNK (rule R120 to rule R136): four steps, "each step a hard precondition for
the next". -/

namespace Sys2Proof.Machine

/-- `fail(E)` (rule R130): the record registers and every DBUF cell become `undef`, END becomes 0, and `E` is
raised. The cursor keeps the value it had reached. -/
def State.failRead (e : ErrorName) (s : State) : State :=
  (((((s.setLength none).setType none).setCrc none).setDbuf Memory.undef).setEnded false).raise e

/-- The result of a successful RDCHUNK (rule R121, rule R129). -/
def State.finishRead (len typ crc : Word) (s : State) : State :=
  (((s.setLength (some len)).setType (some typ)).setCrc (some crc)).setEnded (endFlagOf typ)

/-- Read one four-byte field of the wire: the command goes on with the four bytes, or on a short read, which has
consumed all that remained, with `short` (rule R83, rule R122, rule R124, rule R128). -/
def readField (s : State) (short : State → Result)
    (full : Byte → Byte → Byte → Byte → State → Result) : Result :=
  match s.inBytes 4 with
  | ([b0, b1, b2, b3], s') => full b0 b1 b2 b3 s'
  | (_, s') => short s'

/-- Step 4: the crc (rule R128). It is not verified (rule R133). -/
def readCrc (len typ : Word) (s : State) : Result :=
  readField s (fun s => .next (s.failRead .truncatedCrc)) fun c0 c1 c2 c3 s =>
    .next (s.finishRead len typ (be32 c0 c1 c2 c3))

/-- Step 3: capacity, then the data, data byte `j` to DBUF cell `j` (rule R126, rule R127). -/
def readData (len typ : Word) (s : State) : Result :=
  if s.par.dbufCap < len.toNat then .next (s.failRead .allocationFailure)
  else
    match s.inBytes len.toNat with
    | (ds, s') =>
      if ds.length < len.toNat then .next (s'.failRead .truncatedData)
      else readCrc len typ (s'.setDbuf (s'.dbuf.writeRange 0 ds))

/-- Step 2: the four type bytes, then the alphabetic test (rule R124, rule R125). -/
def readType (len : Word) (s : State) : Result :=
  readField s (fun s => .next (s.failRead .truncatedHeader)) fun t0 t1 t2 t3 s =>
    if isAlpha t0 && isAlpha t1 && isAlpha t2 && isAlpha t3 then
      readData len (be32 t0 t1 t2 t3) s
    else .next (s.failRead .invalidType)

/-- Step 1: the four length bytes, then the range test (rule R122, rule R123). -/
def readLength (s : State) : Result :=
  readField s (fun s => .next (s.failRead .truncatedHeader)) fun l0 l1 l2 l3 s =>
    if Config.lenMax < (be32 l0 l1 l2 l3).toNat then .next (s.failRead .lengthOverflow)
    else readType (be32 l0 l1 l2 l3) s

/-- RDCHUNK (rule R121). -/
def execRdchunk (s : State) : Result := unlessSticky s readLength

end Sys2Proof.Machine
end

