-- ==== Sys2Proof/Machine/ChunkWriter.lean ====
section
/-! DEFINITION. The chunk writer WRCHUNK (rule R160 to rule R169). -/

namespace Sys2Proof.Machine

/-- The wire record of WRCHUNK: length, type, data, crc, nothing between them (rule R81, rule R162). The crc is
the register's, whatever it is (rule R166). -/
def recordCells (len typ crc : Word) (data : List (Option Byte)) : List (Option Byte) :=
  (wireBytes len).map some ++ (wireBytes typ).map some ++ data ++ (wireBytes crc).map some

/-- WRCHUNK's body: the checks on LENGTH before the first byte, then the record (rule R162, rule R163). -/
def writeRecord (s : State) : Result :=
  match s.lengthReg with
  | none => .refused .undefRecord
  | some n =>
    match lengthCheck s.par n with
    | some e => .next (s.raise e)
    | none =>
      match s.typeReg, s.crcReg with
      | some t, some c => emitCells (recordCells n t c (cells n.toNat s.dbuf)) s
      | _, _ => .refused .undefRecord

/-- WRCHUNK (rule R162). -/
def execWrchunk (s : State) : Result := unlessSticky s writeRecord

end Sys2Proof.Machine
end

