-- ==== Sys2Proof/Machine/Crc.lean ====
section
/-! DEFINITION. The function `crc32` (rule R140 to rule R144) and the command CRCCALC (rule R145 to rule R150).
PRESUMED: the spec marks the initial value, the final exclusive or and the bit order as general knowledge, GK1
(log entry 13). -/

namespace Sys2Proof.Machine

/-- One shift step: `if c[0] = 1 then (c >> 1) ^ 0xEDB88320 else c >> 1` (rule R141). -/
def crcShift (c : Word) : Word :=
  if c.getLsbD 0 then (c >>> 1) ^^^ 0xEDB88320#32 else c >>> 1

/-- Eight shift steps (rule R141, rule R142). -/
def crcShift8 (c : Word) : Word :=
  crcShift (crcShift (crcShift (crcShift (crcShift (crcShift (crcShift (crcShift c)))))))

/-- One byte of the message: it is exclusive-ored into `c[7:0]`, then eight shift steps (rule R141). -/
def crcByte (c : Word) (b : Byte) : Word := crcShift8 (c ^^^ b.setWidth 32)

/-- `crc32(m)`, bit by bit (rule R141). -/
def crc32 (m : List Byte) : Word := m.foldl crcByte 0xFFFFFFFF#32 ^^^ 0xFFFFFFFF#32

/-- `TAB[n]` (rule R142). -/
def crcTab (n : Byte) : Word := crcShift8 (n.setWidth 32)

/-- One byte by the table: `TAB[(c ^ b)[7:0]] ^ (c >> 8)` (rule R143). -/
def crcByteByTable (c : Word) (b : Byte) : Word :=
  crcTab ((c ^^^ b.setWidth 32).setWidth 8) ^^^ (c >>> 8)

/-- `crc32(m)` in its table-driven form (rule R143). No command calls it: rule R143 says it is the same function. -/
def crc32ByTable (m : List Byte) : Word := m.foldl crcByteByTable 0xFFFFFFFF#32 ^^^ 0xFFFFFFFF#32

/-- The result of CRCCALC once its checks have passed: the type bytes in wire order, then the data (rule R147).
An `undef` cell is refused (rule R146; log entry 5). -/
def hashRecord (typ : Word) (data : List (Option Byte)) (s : State) : Result :=
  match allDefined data with
  | none => .refused .undefCell
  | some ds => .next (s.setCrcCalc (crc32 (wireBytes typ ++ ds)))

/-- CRCCALC's body: the checks on LENGTH, then the checksum (rule R147, rule R148). -/
def calcCrc (s : State) : Result :=
  match s.lengthReg with
  | none => .refused .undefRecord
  | some n =>
    match lengthCheck s.par n with
    | some e => .next (s.raise e)
    | none =>
      match s.typeReg with
      | none => .refused .undefRecord
      | some t => hashRecord t (cells n.toNat s.dbuf) s

/-- CRCCALC (rule R147). -/
def execCrccalc (s : State) : Result := unlessSticky s calcCrc

end Sys2Proof.Machine
end

