-- ==== Sys2Proof/Machine/Signature.lean ====
section
/-! DEFINITION. The signature commands SIGDET, SIGSCAN and SIGWR (rule R100 to rule R114). -/

namespace Sys2Proof.Machine

/-- SIGDET after its reads: a short read is `SignatureNotFound` with MATCH 0, a full one gives MATCH its answer
(rule R101, rule R102, rule R103). -/
def detectIn (bs : List Byte) (s : State) : State :=
  if bs.length < 8 then (s.setMatched false).raise .signatureNotFound
  else s.setMatched (matchFlagOf bs)

/-- SIGDET (rule R101): all 8 bytes are consumed whether or not they agree. -/
def execSigdet (s : State) : Result :=
  unlessSticky s fun s => .next (detectIn (s.inBytes 8).1 (s.inBytes 8).2)

/-- The window after one more byte: the oldest is dropped when it would hold more than 8 (rule R106). -/
def slide (win : List Byte) (b : Byte) : List Byte :=
  if (win ++ [b]).length > 8 then (win ++ [b]).drop 1 else win ++ [b]

/-- The loop of SIGSCAN (rule R106). The first argument bounds the calls of `InByte()`; the loop always ends
before it runs out when it starts at `len(IN) - ipos + 1`. -/
def scanLoop : Nat → List Byte → State → State
  | 0, _, s => (s.setMatched false).raise .signatureNotFound
  | n + 1, win, s =>
    match s.inByte with
    | none => (s.setMatched false).raise .signatureNotFound
    | some (b, s') =>
      if slide win b = sig then s'.setMatched true else scanLoop n (slide win b) s'

/-- SIGSCAN (rule R106): the window starts empty, bytes of earlier commands take no part. -/
def execSigscan (s : State) : Result :=
  unlessSticky s fun s => .next (scanLoop (s.par.input.length - s.ipos + 1) [] s)

/-- SIGWR (rule R111): emit the 8 bytes of `SIG` in order. -/
def execSigwr (s : State) : Result :=
  unlessSticky s fun s => emitCells (sig.map some) s

/-- The source's own description of scan mode (rule R106, rule R109), on a stream that could seek: try the 8 bytes
at the front of `rest`; on a difference try again one byte forward; where fewer than 8 remain the stream is
exhausted. The answer is the offset `k` found at, if any. No command calls it: rule R109 compares SIGSCAN
with it. -/
def reseekScan : List Byte → Nat → Option Nat
  | [], _ => none
  | b :: rest, k =>
    if (b :: rest).take 8 = sig then some k else reseekScan rest (k + 1)

end Sys2Proof.Machine
end

