-- ==== Sys2Proof/Machine/Dispatch.lean ====
section
/-! DEFINITION. One arm per command (rule R76). -/

namespace Sys2Proof.Machine

/-- What a decoded command does (rule R76). -/
def exec (i : Instr) (s : State) : Host.Outcome State Fault Refusal :=
  match i with
  | .sigdet => Sys2Proof.Machine.execSigdet s
  | .sigscan => Sys2Proof.Machine.execSigscan s
  | .sigwr => Sys2Proof.Machine.execSigwr s
  | .rdchunk => Sys2Proof.Machine.execRdchunk s
  | .crccalc => Sys2Proof.Machine.execCrccalc s
  | .wrchunk => Sys2Proof.Machine.execWrchunk s

end Sys2Proof.Machine
end

