-- ==== Sys2Proof/Machine/HostAccess.lean ====
section
/-! DEFINITION. The four host accesses (rule R175 to rule R180), the issue of a command (rule R78), and the
performing of one host step. -/

namespace Sys2Proof.Machine

/-- `RegWrite(0, w)`: issue and decode (rule R78). Its three arms are these: with ERR nonzero nothing happens
(both arms below go through `unlessSticky`), a reserved word raises `IllegalCommand` and changes nothing else
(rule R79), and any other word runs its command. -/
def issue (w : Word) (s : State) : Result :=
  match decode w with
  | .command i => exec i s
  | .reserved _ => unlessSticky s fun s => .next (s.raise .illegalCommand)

/-- `RegRead(i)` (rule R176). An index above 7 does not exist (rule R175). -/
def regRead (i : Nat) (s : State) : Result :=
  match i with
  | 0 => .next (s.answer (.word 0))
  | 1 => .next (s.answer (.word s.statusWord))
  | 2 => .next (s.answerRegister s.lengthReg)
  | 3 => .next (s.answerRegister s.typeReg)
  | 4 => .next (s.answerRegister s.crcReg)
  | 5 => .next (s.answer (.word s.crcCalc))
  | 6 => .next (s.answer (.word (BitVec.ofNat 32 s.par.dbufCap)))
  | 7 => .next (s.answer (.word 0))
  | _ => .refused (.noRegister i)

/-- `RegWrite(i, v)` (rule R177): no check is made at the write; indices 1, 5, 6 and 7 ignore it. -/
def regWrite (i : Nat) (v : Word) (s : State) : Result :=
  match i with
  | 0 => issue v s
  | 1 => .next s
  | 2 => .next (s.setLength (some v))
  | 3 => .next (s.setType (some v))
  | 4 => .next (s.setCrc (some v))
  | 5 => .next s
  | 6 => .next s
  | 7 => .next s
  | _ => .refused (.noRegister i)

/-- `BufRead(off)` (rule R178): the cell, or any byte if it is `undef`; beyond DBUF_CAP, 0x00. -/
def bufRead (off : Word) (s : State) : Result :=
  if off.toNat < s.par.dbufCap then
    match s.dbuf.read off.toNat with
    | some b => .next (s.answer (.byte b))
    | none => .next (s.answerFree (fun n => .byte (Config.freeByte n)))
  else .next (s.answer (.byte 0))

/-- `BufWrite(off, b)` (rule R179): the one cell; beyond DBUF_CAP, no effect. -/
def bufWrite (off : Word) (b : Byte) (s : State) : Result :=
  if off.toNat < s.par.dbufCap then .next (s.setDbuf (s.dbuf.write off.toNat b)) else .next s

/-- Perform one host step (rule R175, rule R220). The last three have no meaning in the spec (rule R204). -/
def perform (h : HostStep) (s : State) : Result :=
  match h with
  | .regRead i => regRead i s
  | .regWrite i v => regWrite i v s
  | .bufRead off => bufRead off s
  | .bufWrite off b => bufWrite off b s
  | .reset => .next s.resetEvent
  | .regNarrow => .refused .narrowRegister
  | .bufWide => .refused .wideBuffer
  | .secondHost => .refused .secondHost

/-- Take the oldest pending host step, if there is one, and perform it. With none pending the engine does nothing:
it has no self-started activity, no halt and no end-of-run event (rule R220, rule R224; log entry 8). -/
def performNext (s : State) : Result :=
  match s.host.pending with
  | [] => .next s
  | h :: rest => perform h (s.setHost { s.host with pending := rest })

/-- The host issues the command word of `nbits` bits numbered as the opcode table numbers them, to be performed
before anything it had issued (log entry 1). -/
def issueNext (s : State) (nbits w : Nat) : State :=
  s.setHost
    { s.host with pending := .regWrite 0 (BitVec.ofNat 32 (w % 2 ^ nbits)) :: s.host.pending }

end Sys2Proof.Machine
end

