-- ==== Sys2Proof/Machine/HostProgram.lean ====
section
/-! DEFINITION. The host-program notation (rule R87) and its pseudo-instructions (rule R88) as the host steps they
denote. None adds behaviour. A value the host reads on the way (`-> t`) is an argument here: the host's own
decisions are not PCFE steps (rule R87). -/

namespace Sys2Proof.Machine

/-- The line `SIGDET`, `SIGSCAN`, …: `RegWrite(0, w)` with the whole word of the command (rule R87). -/
def lineOf (i : Instr) : HostStep := .regWrite 0 (encode i)

/-- `SETTYPE "abcd"` (rule R88). -/
def setTypeSteps (a b c d : Byte) : List HostStep := [.regWrite 3 (be32 a b c d)]

/-- `LOAD <off>, <b0> <b1> ...` (rule R88). DESIGN CHOICE (log entry 14), unsafe: past offset 0xFFFFFFFF, where rule
R175 has no `BufWrite` and the spec gives the line no step, the next offset wraps to 0. -/
def loadSteps : Word → List Byte → List HostStep
  | _, [] => []
  | off, b :: bs => .bufWrite off b :: loadSteps (off + 1) bs

/-- `RESIGN`, with `t` the word the host read from CRCCALC (rule R88). -/
def resignSteps (t : Word) : List HostStep := [lineOf .crccalc, .regRead 5, .regWrite 4 t]

/-- `VERIFY`: the steps before the host compares the two words it read (rule R88). -/
def verifySteps : List HostStep := [lineOf .crccalc, .regRead 5, .regRead 4]

/-- `CHECK`: the step before the host looks at `s[3:0]` (rule R88). -/
def checkSteps : List HostStep := [.regRead 1]

/-- Perform host steps one after another, stopping at the first that is refused (rule R62). -/
def performAll : List HostStep → State → Result
  | [], s => .next s
  | h :: rest, s =>
    match perform h s with
    | .next s' => performAll rest s'
    | .fault r => .fault r
    | .refused r => .refused r

end Sys2Proof.Machine
end

