-- ==== Sys2Proof/Machine/Step.lean ====
section
/-! DEFINITION. One step of the machine: one host step, performed atomically (rule R6, rule R59). -/

namespace Sys2Proof.Machine

/-- One step: the oldest pending host step is performed (rule R62). -/
def step (s : State) : Host.Outcome State Fault Refusal := performNext s

/-- `s` with the command word stored where `step` takes its next one: as the host's next write to CMD. -/
def State.withFetchWord (s : State) (nbits w : Nat) : State := issueNext s nbits w

end Sys2Proof.Machine
end

