-- ==== Sys2Proof/Safety.lean ====
section
/-! DEFINITION. What counts as a legal state and a safe run, in the terms statements use. -/

namespace Sys2Proof.Machine

/-- The values `STATUS.ERR` can legally hold: 0, 1, 2, 3, 4, 5, 7, 8, 9, 10 (rule R29). -/
def legalErr (e : BitVec 4) : Bool :=
  e.toNat != 6 && decide (e.toNat ≤ 10)

/-- The invariant of PCFE: what rule R8, rule R20, rule R29, rule R36, rule R37 and rule R146 say of every state a
run can be in. -/
structure State.Inv (s : State) : Prop where
  /-- `DBUF_CAP` is in its range (rule R8) -/
  params : s.par.wellFormed = true
  /-- DBUF is in its canonical form -/
  memory : s.dbuf.wf
  /-- DBUF has no cell at or beyond `DBUF_CAP` (rule R35) -/
  cellsInside : ∀ c ∈ s.dbuf, c.1 < s.par.dbufCap
  /-- the cursor is inside `IN` (rule R36) -/
  cursor : s.ipos ≤ s.par.input.length
  /-- no more bytes were emitted than the sink accepts (rule R37) -/
  output : ∀ l, s.par.outLimit = some l → s.out.length ≤ l
  /-- ERR holds a legal value (rule R29) -/
  errLegal : legalErr s.err = true
  /-- the record registers are `undef` only under a sticky error (rule R146) -/
  recordDefined :
    s.err = 0 → s.lengthReg.isSome = true ∧ s.typeReg.isSome = true ∧ s.crcReg.isSome = true

/-- The host keeps its duty of rule R232 when it issues CRCCALC or WRCHUNK: DBUF cells 0 to LENGTH - 1 are
defined. -/
def State.RecordCellsDefined (s : State) : Prop :=
  ∀ n, s.lengthReg = some n → ∀ j, j < n.toNat → (s.dbuf.read j).isSome = true

/-- A run has ended well in this state (rule R224). -/
def State.EndedWell (s : State) : Prop := s.err = 0

/-- The bytes of `IN` that are still to be consumed, `IN[ipos..)` (rule R36). -/
def State.rest (s : State) : List Byte := s.par.input.drop s.ipos

/-- The sink accepts at least `n` more bytes: `OUT_LIMIT - len(OUT) ≥ n` (rule R111, rule R164). -/
def State.hasRoom (s : State) (n : Nat) : Prop := ∀ l, s.par.outLimit = some l → s.out.length + n ≤ l

/-- The state a failed RDCHUNK leaves, having consumed `k` bytes (rule R130). -/
def State.afterFailedRead (s : State) (k : Nat) (code : BitVec 4) : State :=
  { s with
    lengthReg := none
    typeReg := none
    crcReg := none
    dbuf := []
    ended := false
    err := code
    ipos := s.ipos + k }

end Sys2Proof.Machine
end

