-- ==== Sys2Proof/Certificates/Slice0/Obligations.lean ====
section
/-! DEFINITION. The statements about PCFE for the provers. Each cites the rule of the spec it formalises. Result
statements give the whole next state as a record update of the state before, so what is not named in the update is
unchanged: they say completion, result and frame at once. -/

open Sys2Proof Sys2Proof.Machine

/-! ## Notation, encoding, decode -/

/-- Rule R10: `be32` has its first byte most significant, `byte_k` takes the bytes apart again, and the two are
inverse. -/
def Obligations.BigEndianWords : Prop :=
  (∀ b0 b1 b2 b3 : Byte, (be32 b0 b1 b2 b3).toNat =
    b0.toNat * 2 ^ 24 + b1.toNat * 2 ^ 16 + b2.toNat * 2 ^ 8 + b3.toNat) ∧
  (∀ v : Word, byteOf 0 v = v.extractLsb' 24 8 ∧ byteOf 1 v = v.extractLsb' 16 8 ∧
    byteOf 2 v = v.extractLsb' 8 8 ∧ byteOf 3 v = v.extractLsb' 0 8) ∧
  (∀ v : Word, be32 (byteOf 0 v) (byteOf 1 v) (byteOf 2 v) (byteOf 3 v) = v)

/-- Rule R12: what `InByte()` and `OutByte(b)` answer and what they change. -/
def Obligations.StreamPrimitives : Prop :=
  (∀ (s : State) (h : s.ipos < s.par.input.length),
    s.inByte = some (s.par.input[s.ipos], { s with ipos := s.ipos + 1 })) ∧
  (∀ s : State, s.par.input.length ≤ s.ipos → s.inByte = none) ∧
  (∀ (s : State) (b : Byte), (∀ l, s.par.outLimit = some l → s.out.length < l) →
    s.outByte b = some { s with out := s.out ++ [b] }) ∧
  (∀ (s : State) (b : Byte) (l : Nat), s.par.outLimit = some l → l ≤ s.out.length →
    s.outByte b = none)

/-- Rule R14 (the ranges are the spec's general knowledge GK2, log entry 13): which bytes are letters. -/
def Obligations.LetterRanges : Prop :=
  ∀ b : Byte, isAlpha b = true ↔
    (0x41 ≤ b.toNat ∧ b.toNat ≤ 0x5A) ∨ (0x61 ≤ b.toNat ∧ b.toNat ≤ 0x7A)

/-- Rule R76: the six whole words, and an encode that gives them, decode to the six commands. -/
def Obligations.CommandWordsDecode : Prop :=
  decode 0x00000001#32 = .command .sigdet ∧ decode 0x00000002#32 = .command .sigscan ∧
  decode 0x00000003#32 = .command .sigwr ∧ decode 0x00000004#32 = .command .rdchunk ∧
  decode 0x00000005#32 = .command .crccalc ∧ decode 0x00000006#32 = .command .wrchunk ∧
  ∀ i : Instr, i.wellFormed = true → decode (encode i) = .command i

/-- Rule R75, rule R76: no other word decodes to a command: each command has exactly one word. -/
def Obligations.CommandWordUnique : Prop :=
  ∀ (w : Word) (i : Instr), decode w = .command i → w = encode i

/-- Rule R79: every word but 0x00000001 to 0x00000006 is reserved; issued with ERR zero it raises
`IllegalCommand` (code 10) and changes nothing else. -/
def Obligations.ReservedWordsRaiseIllegalCommand : Prop :=
  ∀ (s : State) (w : Word), w.toNat = 0 ∨ 7 ≤ w.toNat →
    (∀ i, decode w ≠ .command i) ∧
    (s.err = 0 → perform (.regWrite 0 w) s = .next { s with err := 10#4 })

/-- Rule R78: the three arms of command issue, in their order: the sticky error, a reserved word, the command that
rule R76 gives for the opcode. -/
def Obligations.CommandIssueThreeArms : Prop :=
  ∀ (s : State) (w : Word),
    (s.err ≠ 0 → perform (.regWrite 0 w) s = .next s) ∧
    (s.err = 0 → (w.toNat / 256 ≠ 0 ∨ w.toNat % 256 < 1 ∨ 6 < w.toNat % 256) →
      perform (.regWrite 0 w) s = .next { s with err := 10#4 }) ∧
    (s.err = 0 → w.toNat / 256 = 0 →
      (w.toNat % 256 = 1 → perform (.regWrite 0 w) s = exec .sigdet s) ∧
      (w.toNat % 256 = 2 → perform (.regWrite 0 w) s = exec .sigscan s) ∧
      (w.toNat % 256 = 3 → perform (.regWrite 0 w) s = exec .sigwr s) ∧
      (w.toNat % 256 = 4 → perform (.regWrite 0 w) s = exec .rdchunk s) ∧
      (w.toNat % 256 = 5 → perform (.regWrite 0 w) s = exec .crccalc s) ∧
      (w.toNat % 256 = 6 → perform (.regWrite 0 w) s = exec .wrchunk s))

/-- Rule R66, rule R78: a step runs the decoded command. When the oldest pending host step writes to CMD a word
that decodes to `i`, `step` is `exec i` of the state with that host step taken off the list (log entry 1). -/
def Obligations.StepRunsDecodedCommand : Prop :=
  ∀ (s : State) (w : Word) (rest : List HostStep) (i : Instr),
    s.host.pending = .regWrite 0 w :: rest → decode w = .command i →
    step s = exec i { s with host := { s.host with pending := rest } }

/-- Rule R62, rule R220 (with the model's choice of log entry 1 and log entry 8): a step performs the oldest pending
host step; with none pending nothing changes. -/
def Obligations.StepPerformsOldestHostStep : Prop :=
  (∀ (s : State) (h : HostStep) (rest : List HostStep), s.host.pending = h :: rest →
    step s = perform h { s with host := { s.host with pending := rest } }) ∧
  (∀ s : State, s.host.pending = [] → step s = .next s)

/-! ## Reset, errors, the invariant -/

/-- Rule R39: the values after reset, at launch and by the reset event (which leaves the streams as they are), and
what the host then reads. -/
def Obligations.ResetValues : Prop :=
  (∀ p : Params,
    (State.launch p).lengthReg = some 0 ∧ (State.launch p).typeReg = some 0 ∧
    (State.launch p).crcReg = some 0 ∧ (State.launch p).crcCalc = 0 ∧ (State.launch p).err = 0 ∧
    (State.launch p).matched = false ∧ (State.launch p).ended = false ∧
    (∀ j, (State.launch p).dbuf.read j = none) ∧ (State.launch p).ipos = 0 ∧
    (State.launch p).out = [] ∧ (State.launch p).par = p) ∧
  State.reset = State.launch State.reset.par ∧
  (∀ s : State, ∃ t, perform .reset s = .next t ∧
    t.lengthReg = some 0 ∧ t.typeReg = some 0 ∧ t.crcReg = some 0 ∧ t.crcCalc = 0 ∧ t.err = 0 ∧
    t.matched = false ∧ t.ended = false ∧ (∀ j, t.dbuf.read j = none) ∧
    t.ipos = s.ipos ∧ t.out = s.out ∧ t.par = s.par ∧
    perform (.regRead 1) t = .next (t.answer (.word 0)) ∧
    perform (.regRead 0) t = .next (t.answer (.word 0)) ∧
    perform (.regRead 7) t = .next (t.answer (.word 0)) ∧
    (s.par.wellFormed = true →
      ∃ w : Word, w.toNat = s.par.dbufCap ∧ perform (.regRead 6) t = .next (t.answer (.word w))))

/-- Rule R194: the sticky error. ERR keeps its value until reset; every word written to CMD is ignored; host reads
and writes of registers and DBUF go on working; a run that ends in it has not ended well. -/
def Obligations.StickyError : Prop :=
  ∀ s : State, s.err ≠ 0 →
    (∀ i, exec i s = .next s) ∧
    (∀ w, perform (.regWrite 0 w) s = .next s) ∧
    (∀ h t, h ≠ .reset → perform h s = .next t → t.err = s.err) ∧
    (∀ v, perform (.regWrite 2 v) s = .next { s with lengthReg := some v } ∧
      perform (.regWrite 3 v) s = .next { s with typeReg := some v } ∧
      perform (.regWrite 4 v) s = .next { s with crcReg := some v }) ∧
    (∀ off b, off.toNat < s.par.dbufCap →
      perform (.bufWrite off b) s = .next { s with dbuf := s.dbuf.write off.toNat b }) ∧
    (∀ i, i < 8 → ∃ p, perform (.regRead i) s = .next { s with host := p }) ∧
    (∀ off, ∃ p, perform (.bufRead off) s = .next { s with host := p }) ∧
    ¬ s.EndedWell

/-- Rule R191: the codes of the errors. -/
def Obligations.ErrorCodes : Prop :=
  ErrorName.truncatedHeader.code = 1 ∧ ErrorName.lengthOverflow.code = 2 ∧
  ErrorName.invalidType.code = 3 ∧ ErrorName.truncatedData.code = 4 ∧
  ErrorName.truncatedCrc.code = 5 ∧ ErrorName.invalidPaletteLength.code = 6 ∧
  ErrorName.signatureNotFound.code = 7 ∧ ErrorName.writeFailure.code = 8 ∧
  ErrorName.allocationFailure.code = 9 ∧ ErrorName.illegalCommand.code = 10

/-- Rule R39, R223: the invariant holds in the launch state of every run whose parameters are in their range, the
model's own `State.reset` (log entry 2) among them. -/
def Obligations.LaunchMeetsInvariant : Prop :=
  (∀ p : Params, p.wellFormed = true → (State.launch p).Inv) ∧ State.reset.Inv

/-- Rule R8, R20, R29, R35, R36, R37, R146: every step keeps the invariant, from every state that meets it. -/
def Obligations.StepKeepsInvariant : Prop :=
  ∀ s t : State, s.Inv → step s = .next t → t.Inv

/-- Rule R20: no step changes the parameters `IN`, `OUT_LIMIT` and `DBUF_CAP`. -/
def Obligations.StepKeepsParameters : Prop :=
  ∀ s t : State, step s = .next t → t.par = s.par

/-- Rule R27, R37: the streams only move forward. `ipos` never decreases and `OUT` is only ever appended to, by
every step, reset too (rule R221). -/
def Obligations.StreamsMoveForwardOnly : Prop :=
  ∀ s t : State, step s = .next t → s.ipos ≤ t.ipos ∧ ∃ bs, t.out = s.out ++ bs

/-- Rule R204, R232: every command answers a next state in every legal state in which the host keeps its duty not
to use an `undef` cell. -/
def Obligations.EveryCommandAnswers : Prop :=
  ∀ (s : State) (i : Instr), s.Inv → s.RecordCellsDefined → ∃ t, exec i s = .next t

/-- Rule R204, R146, R161: in a legal state a command is refused only where it would read an `undef` cell below
LENGTH, and only CRCCALC and WRCHUNK can be. -/
def Obligations.CommandRefusedOnlyForUndefCell : Prop :=
  ∀ (s : State) (i : Instr) (r : Refusal), s.Inv → exec i s = .refused r →
    r = .undefCell ∧ (i = .crccalc ∨ i = .wrchunk) ∧ s.err = 0 ∧
    ∃ n j, s.lengthReg = some n ∧ j < n.toNat ∧ s.dbuf.read j = none

/-! ## Who writes what -/

/-- Rule R103, R108, R113, R132, R149, R168: the complete lists of the errors each command can raise when it
executes; 0 stands for none. -/
def Obligations.CommandErrorLists : Prop :=
  ∀ s t : State, s.err = 0 →
    (exec .sigdet s = .next t → t.err ∈ [0#4, 7#4]) ∧
    (exec .sigscan s = .next t → t.err ∈ [0#4, 7#4]) ∧
    (exec .sigwr s = .next t → t.err ∈ [0#4, 8#4]) ∧
    (exec .rdchunk s = .next t → t.err ∈ [0#4, 1#4, 2#4, 3#4, 4#4, 5#4, 9#4]) ∧
    (exec .crccalc s = .next t → t.err ∈ [0#4, 2#4, 9#4]) ∧
    (exec .wrchunk s = .next t → t.err ∈ [0#4, 2#4, 8#4, 9#4])

/-- Rule R40, the rows of the six commands: what each leaves unchanged in every next state it answers, whether it
succeeded, raised an error or was ignored. CRCCALC and WRCHUNK change no byte of DBUF; RDCHUNK, where ERR is
still 0 afterwards, changes none at or beyond the length it read. -/
def Obligations.CommandsWriteOnlyTheirOwn : Prop :=
  ∀ s t : State,
    (exec .sigdet s = .next t → t = { s with err := t.err, matched := t.matched, ipos := t.ipos }) ∧
    (exec .sigscan s = .next t → t = { s with err := t.err, matched := t.matched, ipos := t.ipos }) ∧
    (exec .sigwr s = .next t → t = { s with err := t.err, out := t.out }) ∧
    (exec .rdchunk s = .next t →
      t = { s with lengthReg := t.lengthReg, typeReg := t.typeReg, crcReg := t.crcReg, err := t.err,
                   ended := t.ended, dbuf := t.dbuf, ipos := t.ipos } ∧
      (t.err = 0 → ∃ n, t.lengthReg = some n ∧
        ∀ j, n.toNat ≤ j → t.dbuf.read j = s.dbuf.read j)) ∧
    (exec .crccalc s = .next t →
      t = { s with crcCalc := t.crcCalc, err := t.err } ∧ ∀ j, t.dbuf.read j = s.dbuf.read j) ∧
    (exec .wrchunk s = .next t →
      t = { s with err := t.err, out := t.out } ∧ ∀ j, t.dbuf.read j = s.dbuf.read j)

/-- Rule R40, R175: no host access but a write to CMD changes ERR, MATCH, END, CRCCALC or a stream, and a read
changes none of the ten components of rule R20. -/
def Obligations.HostAccessesWriteOnlyTheirOwn : Prop :=
  (∀ (s t : State) (i : Nat), perform (.regRead i) s = .next t → t = { s with host := t.host }) ∧
  (∀ (s t : State) (off : Word), perform (.bufRead off) s = .next t → t = { s with host := t.host }) ∧
  (∀ (s t : State) (i : Nat) (v : Word), i ≠ 0 → perform (.regWrite i v) s = .next t →
    t = { s with lengthReg := t.lengthReg, typeReg := t.typeReg, crcReg := t.crcReg } ∧
    (i ≠ 2 → t.lengthReg = s.lengthReg) ∧ (i ≠ 3 → t.typeReg = s.typeReg) ∧
    (i ≠ 4 → t.crcReg = s.crcReg)) ∧
  (∀ (s t : State) (off : Word) (b : Byte), perform (.bufWrite off b) s = .next t →
    t = { s with dbuf := t.dbuf } ∧ ∀ j, j ≠ off.toNat → t.dbuf.read j = s.dbuf.read j)

/-- Rule R30: MATCH is written by SIGDET, by SIGSCAN and by reset, and by nothing else. -/
def Obligations.MatchWrittenOnlyBySignatureCommands : Prop :=
  ∀ s t : State, step s = .next t → t.matched ≠ s.matched →
    ∃ rest, s.host.pending = .reset :: rest ∨
      s.host.pending = .regWrite 0 (encode .sigdet) :: rest ∨
      s.host.pending = .regWrite 0 (encode .sigscan) :: rest

/-- Rule R31: END is written by RDCHUNK and by reset, and by nothing else. -/
def Obligations.EndWrittenOnlyByRdchunk : Prop :=
  ∀ s t : State, step s = .next t → t.ended ≠ s.ended →
    ∃ rest, s.host.pending = .reset :: rest ∨
      s.host.pending = .regWrite 0 (encode .rdchunk) :: rest

/-- Rule R25: CRCCALC is written by a CRCCALC that raised no error and by reset, and by nothing else. -/
def Obligations.CrcCalcWrittenOnlyByCrccalc : Prop :=
  ∀ s t : State, step s = .next t → t.crcCalc ≠ s.crcCalc →
    ∃ rest, s.host.pending = .reset :: rest ∨
      (s.host.pending = .regWrite 0 (encode .crccalc) :: rest ∧ t.err = 0)

/-! ## The signature commands -/

/-- Rule R101, R102, R103: SIGDET as a function of the state before. A full read gives MATCH its answer and no
error; a short one consumes the rest and raises `SignatureNotFound`. -/
def Obligations.SigdetResult : Prop :=
  ∀ s : State, s.err = 0 → s.ipos ≤ s.par.input.length →
    (s.ipos + 8 ≤ s.par.input.length →
      exec .sigdet s = .next
        { s with
          ipos := s.ipos + 8
          matched := decide ((s.par.input.drop s.ipos).take 8 =
            [0x89#8, 0x50#8, 0x4E#8, 0x47#8, 0x0D#8, 0x0A#8, 0x1A#8, 0x0A#8]) }) ∧
    (s.par.input.length < s.ipos + 8 →
      exec .sigdet s = .next
        { s with ipos := s.par.input.length, matched := false, err := 7#4 })

/-- Rule R106, R107, R108: SIGSCAN as a function of the state before. It stops just after the first place the
signature stands at or after the cursor; where there is none it consumes everything and raises
`SignatureNotFound`. -/
def Obligations.SigscanResult : Prop :=
  ∀ s : State, s.err = 0 → s.ipos ≤ s.par.input.length →
    (∀ k, s.ipos + k + 8 ≤ s.par.input.length →
      (s.par.input.drop (s.ipos + k)).take 8 = sig →
      (∀ k', k' < k → (s.par.input.drop (s.ipos + k')).take 8 ≠ sig) →
      exec .sigscan s = .next { s with ipos := s.ipos + k + 8, matched := true }) ∧
    ((∀ k, s.ipos + k + 8 ≤ s.par.input.length →
        (s.par.input.drop (s.ipos + k)).take 8 ≠ sig) →
      exec .sigscan s = .next
        { s with ipos := s.par.input.length, matched := false, err := 7#4 })

/-- Rule R109: SIGSCAN agrees, outcome for outcome, with the source's description of scan mode, which reseeks the
stream one byte forward and retries the 8-byte comparison. -/
def Obligations.SigscanAgreesWithReseek : Prop :=
  ∀ s : State, s.err = 0 → s.ipos ≤ s.par.input.length →
    (∀ k, reseekScan (s.par.input.drop s.ipos) 0 = some k →
      exec .sigscan s = .next { s with ipos := s.ipos + k + 8, matched := true }) ∧
    (reseekScan (s.par.input.drop s.ipos) 0 = none →
      exec .sigscan s = .next
        { s with ipos := s.par.input.length, matched := false, err := 7#4 })

/-- Rule R111, R112, R113: SIGWR appends the signature; where the sink has room for fewer than 8 bytes it appends as
many as there is room for and raises `WriteFailure`. -/
def Obligations.SigwrResult : Prop :=
  ∀ s : State, s.err = 0 →
    ((∀ l, s.par.outLimit = some l → s.out.length + 8 ≤ l) →
      exec .sigwr s = .next
        { s with
          out := s.out ++ [0x89#8, 0x50#8, 0x4E#8, 0x47#8, 0x0D#8, 0x0A#8, 0x1A#8, 0x0A#8] }) ∧
    (∀ l, s.par.outLimit = some l → s.out.length ≤ l → l < s.out.length + 8 →
      exec .sigwr s = .next
        { s with
          out := s.out ++ ([0x89#8, 0x50#8, 0x4E#8, 0x47#8, 0x0D#8, 0x0A#8, 0x1A#8, 0x0A#8] :
            List Byte).take (l - s.out.length)
          err := 8#4 })

/-- Rule R115: what SIGWR writes to an empty output, SIGDET accepts at the start of a second run, consuming exactly
8 bytes. -/
def Obligations.SignatureRoundTrip : Prop :=
  ∀ s : State, s.err = 0 → s.out = [] → s.hasRoom 8 →
    ∃ t, exec .sigwr s = .next t ∧ t.err = 0 ∧
      ∀ u : State, u.err = 0 → u.ipos = 0 → u.par.input = t.out →
        exec .sigdet u = .next { u with ipos := 8, matched := true }

/-! ## RDCHUNK -/

/-- Rule R129: a successful RDCHUNK. The next bytes of the stream are a length, four letters, that many data bytes
and a crc, which may be any four bytes; the length is at most DBUF_CAP and LEN_MAX. -/
def Obligations.RdchunkReadsRecord : Prop :=
  ∀ (s : State) (l0 l1 l2 l3 t0 t1 t2 t3 c0 c1 c2 c3 : Byte) (ds tail : List Byte),
    s.err = 0 →
    s.rest = [l0, l1, l2, l3] ++ [t0, t1, t2, t3] ++ ds ++ [c0, c1, c2, c3] ++ tail →
    (be32 l0 l1 l2 l3).toNat = ds.length → ds.length ≤ Config.lenMax →
    ds.length ≤ s.par.dbufCap →
    (isAlpha t0 && isAlpha t1 && isAlpha t2 && isAlpha t3) = true →
    ∃ m : Memory,
      exec .rdchunk s = .next
        { s with
          lengthReg := some (be32 l0 l1 l2 l3)
          typeReg := some (be32 t0 t1 t2 t3)
          crcReg := some (be32 c0 c1 c2 c3)
          ended := decide (be32 t0 t1 t2 t3 = 0x49454E44#32)
          dbuf := m
          ipos := s.ipos + (12 + ds.length) } ∧
      (∀ j, j < ds.length → m.read j = ds[j]?) ∧
      (∀ j, ds.length ≤ j → m.read j = s.dbuf.read j)

/-- Rule R122: fewer than 4 bytes are left: all are consumed, `TruncatedHeader`. -/
def Obligations.RdchunkTruncatedLength : Prop :=
  ∀ s : State, s.err = 0 → s.rest.length < 4 →
    exec .rdchunk s = .next (s.afterFailedRead s.rest.length 1#4)

/-- Rule R123: the length is above LEN_MAX, whatever follows it: 4 bytes are consumed, `LengthOverflow`. The test is
bit 7 of the first length byte. -/
def Obligations.RdchunkLengthOverflow : Prop :=
  ∀ (s : State) (l0 l1 l2 l3 : Byte) (tail : List Byte), s.err = 0 →
    s.rest = [l0, l1, l2, l3] ++ tail →
    (Config.lenMax < (be32 l0 l1 l2 l3).toNat ↔ l0.getLsbD 7 = true) ∧
    (Config.lenMax < (be32 l0 l1 l2 l3).toNat →
      exec .rdchunk s = .next (s.afterFailedRead 4 2#4))

/-- Rule R124: the stream ends inside the type, whatever type bytes did arrive: all are consumed,
`TruncatedHeader`. -/
def Obligations.RdchunkTruncatedType : Prop :=
  ∀ (s : State) (l0 l1 l2 l3 : Byte) (tail : List Byte), s.err = 0 →
    s.rest = [l0, l1, l2, l3] ++ tail → (be32 l0 l1 l2 l3).toNat ≤ Config.lenMax →
    tail.length < 4 →
    exec .rdchunk s = .next (s.afterFailedRead (4 + tail.length) 1#4)

/-- Rule R125: at least one type byte is no letter, for every legal length and whatever follows: 8 bytes are
consumed, `InvalidType`. -/
def Obligations.RdchunkInvalidType : Prop :=
  ∀ (s : State) (l0 l1 l2 l3 t0 t1 t2 t3 : Byte) (tail : List Byte), s.err = 0 →
    s.rest = [l0, l1, l2, l3] ++ [t0, t1, t2, t3] ++ tail →
    (be32 l0 l1 l2 l3).toNat ≤ Config.lenMax →
    (isAlpha t0 = false ∨ isAlpha t1 = false ∨ isAlpha t2 = false ∨ isAlpha t3 = false) →
    exec .rdchunk s = .next (s.afterFailedRead 8 3#4)

/-- Rule R126: a legal length above DBUF_CAP, after the type has passed and before any data byte: 8 bytes are
consumed, `AllocationFailure`. -/
def Obligations.RdchunkAllocationFailure : Prop :=
  ∀ (s : State) (l0 l1 l2 l3 t0 t1 t2 t3 : Byte) (tail : List Byte), s.err = 0 →
    s.rest = [l0, l1, l2, l3] ++ [t0, t1, t2, t3] ++ tail →
    (be32 l0 l1 l2 l3).toNat ≤ Config.lenMax → s.par.dbufCap < (be32 l0 l1 l2 l3).toNat →
    (isAlpha t0 && isAlpha t1 && isAlpha t2 && isAlpha t3) = true →
    exec .rdchunk s = .next (s.afterFailedRead 8 9#4)

/-- Rule R127, R130, R131: the stream ends inside the data: all are consumed, `TruncatedData`, and the cells written
so far are not kept. -/
def Obligations.RdchunkTruncatedData : Prop :=
  ∀ (s : State) (l0 l1 l2 l3 t0 t1 t2 t3 : Byte) (tail : List Byte), s.err = 0 →
    s.rest = [l0, l1, l2, l3] ++ [t0, t1, t2, t3] ++ tail →
    (be32 l0 l1 l2 l3).toNat ≤ Config.lenMax → (be32 l0 l1 l2 l3).toNat ≤ s.par.dbufCap →
    (isAlpha t0 && isAlpha t1 && isAlpha t2 && isAlpha t3) = true →
    tail.length < (be32 l0 l1 l2 l3).toNat →
    exec .rdchunk s = .next (s.afterFailedRead (8 + tail.length) 4#4)

/-- Rule R128: the stream ends inside the crc: all are consumed, `TruncatedCrc`, and the data is not kept. -/
def Obligations.RdchunkTruncatedCrc : Prop :=
  ∀ (s : State) (l0 l1 l2 l3 t0 t1 t2 t3 : Byte) (ds tail : List Byte), s.err = 0 →
    s.rest = [l0, l1, l2, l3] ++ [t0, t1, t2, t3] ++ ds ++ tail →
    (be32 l0 l1 l2 l3).toNat = ds.length → ds.length ≤ Config.lenMax →
    ds.length ≤ s.par.dbufCap →
    (isAlpha t0 && isAlpha t1 && isAlpha t2 && isAlpha t3) = true → tail.length < 4 →
    exec .rdchunk s = .next (s.afterFailedRead (8 + ds.length + tail.length) 5#4)

/-- Rule R130: whatever made RDCHUNK fail, the record registers and every DBUF cell are `undef` afterwards and END
is 0. -/
def Obligations.FailedRdchunkLeavesNothing : Prop :=
  ∀ s t : State, s.err = 0 → exec .rdchunk s = .next t → t.err ≠ 0 →
    t.lengthReg = none ∧ t.typeReg = none ∧ t.crcReg = none ∧ (∀ j, t.dbuf.read j = none) ∧
    t.ended = false

/-- Rule R120: RDCHUNK does not read LENGTH, TYPE, CRC, CRCCALC, MATCH, END, DBUF or OUT: two states that differ
there only get the same record, the same END, the same ERR and the same cursor. -/
def Obligations.RdchunkIgnoresOldRecord : Prop :=
  ∀ (s u t : State), s.err = 0 → u.err = 0 → u.ipos = s.ipos → u.par = s.par →
    exec .rdchunk s = .next t →
    ∃ v, exec .rdchunk u = .next v ∧ v.lengthReg = t.lengthReg ∧ v.typeReg = t.typeReg ∧
      v.crcReg = t.crcReg ∧ v.err = t.err ∧ v.ended = t.ended ∧ v.ipos = t.ipos ∧
      (∀ n, t.lengthReg = some n → ∀ j, j < n.toNat → v.dbuf.read j = t.dbuf.read j)

/-! ## The CRC engine -/

/-- Rule R143: the table-driven form of `crc32` is the same function as the bitwise form of rule R141. The
parameters and the table's construction are the spec's general knowledge GK1 (log entry 13). -/
def Obligations.CrcTableFormAgrees : Prop := ∀ m : List Byte, crc32ByTable m = crc32 m

/-- Rule R147, R148, R149: CRCCALC. A LENGTH above LEN_MAX or above DBUF_CAP raises its error and changes nothing
else; otherwise the register CRCCALC gets crc32 of the four type bytes and DBUF[0..LENGTH). -/
def Obligations.CrccalcResult : Prop :=
  ∀ (s : State) (n : Word), s.err = 0 → s.lengthReg = some n →
    (Config.lenMax < n.toNat → exec .crccalc s = .next { s with err := 2#4 }) ∧
    (n.toNat ≤ Config.lenMax → s.par.dbufCap < n.toNat →
      exec .crccalc s = .next { s with err := 9#4 }) ∧
    (n.toNat ≤ Config.lenMax → n.toNat ≤ s.par.dbufCap →
      ∀ (t : Word) (ds : List Byte), s.typeReg = some t → ds.length = n.toNat →
        (∀ j, j < n.toNat → s.dbuf.read j = ds[j]?) →
        exec .crccalc s = .next
          { s with
            crcCalc := crc32 ([t.extractLsb' 24 8, t.extractLsb' 16 8, t.extractLsb' 8 8,
              t.extractLsb' 0 8] ++ ds) })

/-- Rule R81, R147, R148: straight after a successful RDCHUNK neither length check of CRCCALC can fail, and the register
CRCCALC gets crc32 of the bytes of the stream that stood between the length and the crc. -/
def Obligations.CrccalcAfterRdchunk : Prop :=
  ∀ s t : State, s.err = 0 → exec .rdchunk s = .next t → t.err = 0 →
    exec .crccalc t = .next
      { t with crcCalc := crc32 ((s.rest.take (t.ipos - s.ipos - 4)).drop 4) }

/-- Rule R146, R204: a CRCCALC that would read an `undef` cell is refused. -/
def Obligations.CrccalcRefusesUndefCell : Prop :=
  ∀ (s : State) (n t : Word) (j : Nat), s.err = 0 → s.lengthReg = some n → s.typeReg = some t →
    n.toNat ≤ Config.lenMax → n.toNat ≤ s.par.dbufCap → j < n.toNat → s.dbuf.read j = none →
    exec .crccalc s = .refused .undefCell

/-! ## WRCHUNK -/

/-- Rule R162, R163: WRCHUNK. A LENGTH above LEN_MAX or above DBUF_CAP raises its error before the first byte and
changes nothing else; otherwise, where the sink has room, the record is appended and nothing else changes. The crc
is the register's, the type is not checked. -/
def Obligations.WrchunkWritesRecord : Prop :=
  ∀ (s : State) (n : Word), s.err = 0 → s.lengthReg = some n →
    (Config.lenMax < n.toNat → exec .wrchunk s = .next { s with err := 2#4 }) ∧
    (n.toNat ≤ Config.lenMax → s.par.dbufCap < n.toNat →
      exec .wrchunk s = .next { s with err := 9#4 }) ∧
    (n.toNat ≤ Config.lenMax → n.toNat ≤ s.par.dbufCap →
      ∀ (t c : Word) (ds : List Byte), s.typeReg = some t → s.crcReg = some c →
        ds.length = n.toNat → (∀ j, j < n.toNat → s.dbuf.read j = ds[j]?) →
        (∀ l, s.par.outLimit = some l → s.out.length + (12 + n.toNat) ≤ l) →
        exec .wrchunk s = .next
          { s with out := s.out ++ (wireBytes n ++ wireBytes t ++ ds ++ wireBytes c) })

/-- Rule R164: where the sink has room for fewer than `12 + n` bytes, exactly the first of them are appended, inside
a field as well as between fields, and `WriteFailure` is raised. -/
def Obligations.WrchunkWriteFailure : Prop :=
  ∀ (s : State) (n t c : Word) (ds : List Byte) (l : Nat), s.err = 0 → s.lengthReg = some n →
    s.typeReg = some t → s.crcReg = some c → n.toNat ≤ Config.lenMax →
    n.toNat ≤ s.par.dbufCap → ds.length = n.toNat → (∀ j, j < n.toNat → s.dbuf.read j = ds[j]?) →
    s.par.outLimit = some l → s.out.length ≤ l → l < s.out.length + (12 + n.toNat) →
    exec .wrchunk s = .next
      { s with
        out := s.out ++
          (wireBytes n ++ wireBytes t ++ ds ++ wireBytes c).take (l - s.out.length)
        err := 8#4 }

/-- Rule R161, R162, R204, read in the order the bytes go out (log entry 5): cell `ds.length` is the first `undef`
cell below LENGTH. WRCHUNK is refused when it comes to read that cell; where the sink refuses a byte before, it is
`WriteFailure`. -/
def Obligations.WrchunkUndefCell : Prop :=
  ∀ (s : State) (n t c : Word) (ds : List Byte), s.err = 0 → s.lengthReg = some n →
    s.typeReg = some t → s.crcReg = some c → n.toNat ≤ Config.lenMax →
    n.toNat ≤ s.par.dbufCap → ds.length < n.toNat →
    (∀ j, j < ds.length → s.dbuf.read j = ds[j]?) → s.dbuf.read ds.length = none →
    (s.hasRoom (8 + ds.length) → exec .wrchunk s = .refused .undefCell) ∧
    (∀ l, s.par.outLimit = some l → s.out.length ≤ l → l < s.out.length + (8 + ds.length) →
      exec .wrchunk s = .next
        { s with
          out := s.out ++ (wireBytes n ++ wireBytes t ++ ds).take (l - s.out.length)
          err := 8#4 })

/-- Rule R137: the record WRCHUNK emits, RDCHUNK reads back the same, whatever the crc is, consuming exactly
`12 + n` bytes. -/
def Obligations.ChunkRoundTrip : Prop :=
  ∀ (s : State) (n t c : Word) (ds : List Byte), s.err = 0 → s.lengthReg = some n →
    s.typeReg = some t → s.crcReg = some c → n.toNat ≤ Config.lenMax →
    n.toNat ≤ s.par.dbufCap → ds.length = n.toNat → (∀ j, j < n.toNat → s.dbuf.read j = ds[j]?) →
    (∀ b ∈ wireBytes t, isAlpha b = true) → s.hasRoom (12 + n.toNat) →
    ∃ s' W, exec .wrchunk s = .next s' ∧ s'.out = s.out ++ W ∧ W.length = 12 + n.toNat ∧
      ∀ (u : State) (tail : List Byte), u.err = 0 → u.rest = W ++ tail →
        n.toNat ≤ u.par.dbufCap →
        ∃ v, exec .rdchunk u = .next v ∧ v.err = 0 ∧ v.lengthReg = some n ∧ v.typeReg = some t ∧
          v.crcReg = some c ∧ (∀ j, j < n.toNat → v.dbuf.read j = ds[j]?) ∧
          v.ipos = u.ipos + (12 + n.toNat)

/-- Rule R171: a record read and written with no host write between leaves exactly the bytes it came in as, its crc
included, right or wrong. -/
def Obligations.PassThroughIsVerbatim : Prop :=
  ∀ s t : State, s.err = 0 → exec .rdchunk s = .next t → t.err = 0 →
    t.hasRoom (t.ipos - s.ipos) →
    exec .wrchunk t = .next { t with out := t.out ++ s.rest.take (t.ipos - s.ipos) }

/-! ## Host accesses -/

/-- Rule R176: what a register read returns; the read changes nothing but the model's record of the host's port. An
`undef` register gives some word: that it is a free value, and that the counter `drawn` goes up by one, is the
model's choice (log entry 3). -/
def Obligations.RegisterReads : Prop :=
  (∀ s : State, perform (.regRead 0) s = .next (s.answer (.word 0))) ∧
  (∀ s : State, ∃ w : Word,
    w.toNat = (if s.ended then 32 else 0) + (if s.matched then 16 else 0) + s.err.toNat ∧
    perform (.regRead 1) s = .next (s.answer (.word w))) ∧
  (∀ (s : State) (w : Word), s.lengthReg = some w →
    perform (.regRead 2) s = .next (s.answer (.word w))) ∧
  (∀ (s : State) (w : Word), s.typeReg = some w →
    perform (.regRead 3) s = .next (s.answer (.word w))) ∧
  (∀ (s : State) (w : Word), s.crcReg = some w →
    perform (.regRead 4) s = .next (s.answer (.word w))) ∧
  (∀ s : State, s.lengthReg = none → ∃ w, perform (.regRead 2) s =
    .next { s with host := { s.host with reply := some (.word w), drawn := s.host.drawn + 1 } }) ∧
  (∀ s : State, s.typeReg = none → ∃ w, perform (.regRead 3) s =
    .next { s with host := { s.host with reply := some (.word w), drawn := s.host.drawn + 1 } }) ∧
  (∀ s : State, s.crcReg = none → ∃ w, perform (.regRead 4) s =
    .next { s with host := { s.host with reply := some (.word w), drawn := s.host.drawn + 1 } }) ∧
  (∀ s : State, perform (.regRead 5) s = .next (s.answer (.word s.crcCalc))) ∧
  (∀ s : State, s.par.wellFormed = true → ∃ w : Word, w.toNat = s.par.dbufCap ∧
    perform (.regRead 6) s = .next (s.answer (.word w))) ∧
  (∀ s : State, perform (.regRead 7) s = .next (s.answer (.word 0)))

/-- Rule R177: what a register write does: LENGTH, TYPE and CRC take all 32 bits unchecked, indices 1, 5, 6 and 7
ignore it, index 0 issues the word as a command. -/
def Obligations.RegisterWrites : Prop :=
  ∀ (s : State) (v : Word),
    perform (.regWrite 0 v) s = issue v s ∧
    perform (.regWrite 2 v) s = .next { s with lengthReg := some v } ∧
    perform (.regWrite 3 v) s = .next { s with typeReg := some v } ∧
    perform (.regWrite 4 v) s = .next { s with crcReg := some v } ∧
    perform (.regWrite 1 v) s = .next s ∧ perform (.regWrite 5 v) s = .next s ∧
    perform (.regWrite 6 v) s = .next s ∧ perform (.regWrite 7 v) s = .next s

/-- Rule R178: what a DBUF read returns: the cell, some byte where it is `undef`, 0x00 at or beyond DBUF_CAP. That
the byte of an `undef` cell is a free value, and that the counter `drawn` goes up by one, is the model's choice (log
entry 3). -/
def Obligations.BufferReads : Prop :=
  ∀ (s : State) (off : Word),
    (off.toNat < s.par.dbufCap → ∀ b, s.dbuf.read off.toNat = some b →
      perform (.bufRead off) s = .next (s.answer (.byte b))) ∧
    (off.toNat < s.par.dbufCap → s.dbuf.read off.toNat = none →
      ∃ b, perform (.bufRead off) s =
        .next { s with host := { s.host with reply := some (.byte b), drawn := s.host.drawn + 1 } }) ∧
    (s.par.dbufCap ≤ off.toNat → perform (.bufRead off) s = .next (s.answer (.byte 0)))

/-- Rule R179: what a DBUF write does: the one cell, no other cell and no register; at or beyond DBUF_CAP nothing. -/
def Obligations.BufferWrites : Prop :=
  ∀ (s : State) (off : Word) (b : Byte),
    (off.toNat < s.par.dbufCap → ∃ m : Memory,
      perform (.bufWrite off b) s = .next { s with dbuf := m } ∧
      m.read off.toNat = some b ∧ ∀ j, j ≠ off.toNat → m.read j = s.dbuf.read j) ∧
    (s.par.dbufCap ≤ off.toNat → perform (.bufWrite off b) s = .next s)

/-- Rule R56, R57, R175, R204 (the names of the refusals are the model's, log entry 10): the accesses the spec gives
no meaning are refused by name. -/
def Obligations.UndefinedAccessesRefused : Prop :=
  (∀ (s : State) (i : Nat), 8 ≤ i → perform (.regRead i) s = .refused (.noRegister i)) ∧
  (∀ (s : State) (i : Nat) (v : Word), 8 ≤ i →
    perform (.regWrite i v) s = .refused (.noRegister i)) ∧
  (∀ s : State, perform .regNarrow s = .refused .narrowRegister) ∧
  (∀ s : State, perform .bufWide s = .refused .wideBuffer) ∧
  (∀ s : State, perform .secondHost s = .refused .secondHost)

/-- Rule R88, R233: RESIGN. After CRCCALC and a read of CRCCALC the host holds a word `w`; with that word RESIGN leaves
CRC equal to crc32 of the type bytes and the data, and the data and the type as they were. -/
def Obligations.ResignMakesCrcTrue : Prop :=
  ∀ (s : State) (n t : Word) (ds : List Byte), s.err = 0 → s.lengthReg = some n →
    s.typeReg = some t → n.toNat ≤ Config.lenMax → n.toNat ≤ s.par.dbufCap →
    ds.length = n.toNat → (∀ j, j < n.toNat → s.dbuf.read j = ds[j]?) →
    ∃ w u v, performAll [lineOf .crccalc, .regRead 5] s = .next u ∧
      u.host.reply = some (.word w) ∧ performAll (resignSteps w) s = .next v ∧
      v.crcReg = some (crc32 (wireBytes t ++ ds)) ∧ v.err = 0 ∧ v.lengthReg = some n ∧
      v.typeReg = some t ∧ v.dbuf = s.dbuf
end

