-- ==== Sys2Proof/Laws/Memory.lean ====
section
/-! SUPPORT. What a read of DBUF gives after a write, and that every memory operation keeps the canonical form. -/

namespace Sys2Proof.Machine

@[simp] theorem Memory.read_nil (j : Nat) : Memory.read [] j = none := rfl

/-- A read after a write: the byte written in the cell written, and every other cell as it was (rule R179). -/
@[simp] theorem Memory.read_write (m : Memory) (off j : Nat) (v : Byte) :
    (m.write off v).read j = if j = off then some v else m.read j := by
  induction m with
  | nil => simp [Memory.write, Memory.read]
  | cons c rest ih =>
    obtain ⟨a, w⟩ := c
    simp only [Memory.write]
    split_ifs with h1 h2
    all_goals simp only [Memory.read, ih]
    all_goals split_ifs <;> first | rfl | omega

/-- A cell listed after a write is the one written, or was listed before. -/
theorem Memory.mem_write {m : Memory} {off : Nat} {v : Byte} {c : Host.Cell}
    (h : c ∈ m.write off v) : c = (off, v) ∨ c ∈ m := by
  induction m with
  | nil => simpa [Memory.write] using h
  | cons d rest ih =>
    obtain ⟨a, w⟩ := d
    simp only [Memory.write] at h
    split_ifs at h with h1 h2
    · simpa using h
    · rcases List.mem_cons.mp h with h | h
      · exact .inl h
      · exact .inr (List.mem_cons_of_mem _ h)
    · rcases List.mem_cons.mp h with h | h
      · exact .inr (h ▸ List.mem_cons_self)
      · exact (ih h).imp id (List.mem_cons_of_mem _)

/-- A write keeps the canonical form. -/
theorem Memory.wf_write {m : Memory} (h : m.wf) (off : Nat) (v : Byte) : (m.write off v).wf := by
  induction m with
  | nil => simp [Memory.write]
  | cons d rest ih =>
    obtain ⟨a, w⟩ := d
    obtain ⟨hd, hr⟩ := List.pairwise_cons.mp h
    simp only [Memory.write]
    split_ifs with h1 h2
    · refine List.pairwise_cons.mpr ⟨fun c hc => ?_, h⟩
      rcases List.mem_cons.mp hc with hc | hc
      · simpa [hc] using h1
      · exact lt_trans h1 (hd c hc)
    · exact List.pairwise_cons.mpr ⟨fun c hc => h2 ▸ hd c hc, hr⟩
    · refine List.pairwise_cons.mpr ⟨fun c hc => ?_, ih hr⟩
      rcases Memory.mem_write hc with hc | hc
      · subst hc; simp; omega
      · exact hd c hc

/-- A read after a run of bytes is stored: byte `j - off` inside the run, the old content outside (rule R127). -/
theorem Memory.read_writeRange (m : Memory) (off : Nat) (bs : List Byte) (j : Nat) :
    (m.writeRange off bs).read j =
      if off ≤ j ∧ j < off + bs.length then bs[j - off]? else m.read j := by
  induction bs generalizing m off with
  | nil => simp [Memory.writeRange]
  | cons b rest ih =>
    simp only [Memory.writeRange, ih, Memory.read_write, List.length_cons]
    by_cases hj : j = off
    · subst hj
      simp
    · by_cases hin : off + 1 ≤ j ∧ j < off + 1 + rest.length
      · obtain ⟨k, rfl⟩ : ∃ k, j = off + 1 + k := ⟨j - (off + 1), by omega⟩
        rw [if_pos hin, if_pos (by omega), show off + 1 + k - (off + 1) = k by omega,
          show off + 1 + k - off = k + 1 by omega, List.getElem?_cons_succ]
      · rw [if_neg hin, if_neg hj, if_neg (by omega)]

/-- A run of writes keeps the canonical form. -/
theorem Memory.wf_writeRange {m : Memory} (h : m.wf) (off : Nat) (bs : List Byte) :
    (m.writeRange off bs).wf := by
  induction bs generalizing m off with
  | nil => exact h
  | cons b rest ih => exact ih (Memory.wf_write h off b) (off + 1)

/-- A cell listed after a run of writes is inside the run, or was listed before. -/
theorem Memory.mem_writeRange {m : Memory} {off : Nat} {bs : List Byte} {c : Host.Cell}
    (h : c ∈ m.writeRange off bs) : (off ≤ c.1 ∧ c.1 < off + bs.length) ∨ c ∈ m := by
  induction bs generalizing m off with
  | nil => exact .inr h
  | cons b rest ih =>
    rcases ih h with h | h
    · exact .inl ⟨by omega, by simp; omega⟩
    · rcases Memory.mem_write h with h | h
      · subst h; exact .inl ⟨by simp, by simp⟩
      · exact .inr h

/-- A memory whose cells are all undefined is in canonical form. -/
theorem Memory.wf_undef : Memory.undef.wf := List.Pairwise.nil

/-- In canonical form the cells that read as a byte are the listed ones. -/
theorem Memory.mem_of_read {m : Memory} {j : Nat} {v : Byte} (h : m.read j = some v) : (j, v) ∈ m := by
  induction m with
  | nil => simp at h
  | cons d rest ih =>
    obtain ⟨a, w⟩ := d
    simp only [Memory.read] at h
    split_ifs at h with hj
    · cases h; subst hj; exact List.mem_cons_self
    · exact List.mem_cons_of_mem _ (ih h)

/-- Cells 0 to `n - 1` are all defined exactly when their bytes can be listed. -/
theorem allDefined_eq_some {l : List (Option Byte)} {ds : List Byte} :
    allDefined l = some ds ↔ l = ds.map some := by
  induction l generalizing ds with
  | nil => cases ds <;> simp [allDefined]
  | cons c rest ih =>
    cases c with
    | none => cases ds <;> simp [allDefined]
    | some b => cases ds <;> simp [allDefined, ih, and_comm]

end Sys2Proof.Machine
end

