-- ==== Sys2Proof/Laws/PerInstr.lean ====
section
/-! SUPPORT. A fact about every command as syntax, one lemma per constructor: its whole word is the opcode table's
(rule R75, rule R76). -/

namespace Sys2Proof.Laws

/-- The word the opcode table gives a command, as its row's `match` (rule R76). -/
def tableMatch : Instr → Nat
  | .sigdet => 1
  | .sigscan => 2
  | .sigwr => 3
  | .rdchunk => 4
  | .crccalc => 5
  | .wrchunk => 6

/-- The encoder gives the table's word, with its field `zero` zero, and the decoder reads the command back from the
table's numbering of the bits. -/
def CommandWord.Statement (i : Instr) : Prop :=
  (encode i).toNat = tableMatch i ∧ zeroOf (encode i) = 0 ∧
    opcodeOf (encode i) = opcodeFor i ∧ decodeTableWord 32 (tableMatch i) = some i

theorem CommandWord.sigdet : CommandWord.Statement .sigdet := ⟨by decide, by decide, by decide, by decide⟩
theorem CommandWord.sigscan : CommandWord.Statement .sigscan := ⟨by decide, by decide, by decide, by decide⟩
theorem CommandWord.sigwr : CommandWord.Statement .sigwr := ⟨by decide, by decide, by decide, by decide⟩
theorem CommandWord.rdchunk : CommandWord.Statement .rdchunk := ⟨by decide, by decide, by decide, by decide⟩
theorem CommandWord.crccalc : CommandWord.Statement .crccalc := ⟨by decide, by decide, by decide, by decide⟩
theorem CommandWord.wrchunk : CommandWord.Statement .wrchunk := ⟨by decide, by decide, by decide, by decide⟩

end Sys2Proof.Laws
end

