-- ==== Sys2Proof/Laws/State.lean ====
section
/-! SUPPORT. One lemma per component of the state per update, each true by `rfl`, so that no later proof unfolds a
record update. Then the inversion of the operations that are built of updates alone. -/

namespace Sys2Proof.Machine

/-! ## setLength -/

@[simp] theorem State.setLength_lengthReg (v : Option Word) (s : State) : (s.setLength v).lengthReg = v := rfl
@[simp] theorem State.setLength_typeReg (v : Option Word) (s : State) : (s.setLength v).typeReg = s.typeReg := rfl
@[simp] theorem State.setLength_crcReg (v : Option Word) (s : State) : (s.setLength v).crcReg = s.crcReg := rfl
@[simp] theorem State.setLength_crcCalc (v : Option Word) (s : State) : (s.setLength v).crcCalc = s.crcCalc := rfl
@[simp] theorem State.setLength_err (v : Option Word) (s : State) : (s.setLength v).err = s.err := rfl
@[simp] theorem State.setLength_matched (v : Option Word) (s : State) : (s.setLength v).matched = s.matched := rfl
@[simp] theorem State.setLength_ended (v : Option Word) (s : State) : (s.setLength v).ended = s.ended := rfl
@[simp] theorem State.setLength_dbuf (v : Option Word) (s : State) : (s.setLength v).dbuf = s.dbuf := rfl
@[simp] theorem State.setLength_ipos (v : Option Word) (s : State) : (s.setLength v).ipos = s.ipos := rfl
@[simp] theorem State.setLength_out (v : Option Word) (s : State) : (s.setLength v).out = s.out := rfl
@[simp] theorem State.setLength_par (v : Option Word) (s : State) : (s.setLength v).par = s.par := rfl
@[simp] theorem State.setLength_host (v : Option Word) (s : State) : (s.setLength v).host = s.host := rfl

/-! ## setType -/

@[simp] theorem State.setType_lengthReg (v : Option Word) (s : State) : (s.setType v).lengthReg = s.lengthReg := rfl
@[simp] theorem State.setType_typeReg (v : Option Word) (s : State) : (s.setType v).typeReg = v := rfl
@[simp] theorem State.setType_crcReg (v : Option Word) (s : State) : (s.setType v).crcReg = s.crcReg := rfl
@[simp] theorem State.setType_crcCalc (v : Option Word) (s : State) : (s.setType v).crcCalc = s.crcCalc := rfl
@[simp] theorem State.setType_err (v : Option Word) (s : State) : (s.setType v).err = s.err := rfl
@[simp] theorem State.setType_matched (v : Option Word) (s : State) : (s.setType v).matched = s.matched := rfl
@[simp] theorem State.setType_ended (v : Option Word) (s : State) : (s.setType v).ended = s.ended := rfl
@[simp] theorem State.setType_dbuf (v : Option Word) (s : State) : (s.setType v).dbuf = s.dbuf := rfl
@[simp] theorem State.setType_ipos (v : Option Word) (s : State) : (s.setType v).ipos = s.ipos := rfl
@[simp] theorem State.setType_out (v : Option Word) (s : State) : (s.setType v).out = s.out := rfl
@[simp] theorem State.setType_par (v : Option Word) (s : State) : (s.setType v).par = s.par := rfl
@[simp] theorem State.setType_host (v : Option Word) (s : State) : (s.setType v).host = s.host := rfl

/-! ## setCrc -/

@[simp] theorem State.setCrc_lengthReg (v : Option Word) (s : State) : (s.setCrc v).lengthReg = s.lengthReg := rfl
@[simp] theorem State.setCrc_typeReg (v : Option Word) (s : State) : (s.setCrc v).typeReg = s.typeReg := rfl
@[simp] theorem State.setCrc_crcReg (v : Option Word) (s : State) : (s.setCrc v).crcReg = v := rfl
@[simp] theorem State.setCrc_crcCalc (v : Option Word) (s : State) : (s.setCrc v).crcCalc = s.crcCalc := rfl
@[simp] theorem State.setCrc_err (v : Option Word) (s : State) : (s.setCrc v).err = s.err := rfl
@[simp] theorem State.setCrc_matched (v : Option Word) (s : State) : (s.setCrc v).matched = s.matched := rfl
@[simp] theorem State.setCrc_ended (v : Option Word) (s : State) : (s.setCrc v).ended = s.ended := rfl
@[simp] theorem State.setCrc_dbuf (v : Option Word) (s : State) : (s.setCrc v).dbuf = s.dbuf := rfl
@[simp] theorem State.setCrc_ipos (v : Option Word) (s : State) : (s.setCrc v).ipos = s.ipos := rfl
@[simp] theorem State.setCrc_out (v : Option Word) (s : State) : (s.setCrc v).out = s.out := rfl
@[simp] theorem State.setCrc_par (v : Option Word) (s : State) : (s.setCrc v).par = s.par := rfl
@[simp] theorem State.setCrc_host (v : Option Word) (s : State) : (s.setCrc v).host = s.host := rfl

/-! ## setCrcCalc -/

@[simp] theorem State.setCrcCalc_lengthReg (v : Word) (s : State) : (s.setCrcCalc v).lengthReg = s.lengthReg := rfl
@[simp] theorem State.setCrcCalc_typeReg (v : Word) (s : State) : (s.setCrcCalc v).typeReg = s.typeReg := rfl
@[simp] theorem State.setCrcCalc_crcReg (v : Word) (s : State) : (s.setCrcCalc v).crcReg = s.crcReg := rfl
@[simp] theorem State.setCrcCalc_crcCalc (v : Word) (s : State) : (s.setCrcCalc v).crcCalc = v := rfl
@[simp] theorem State.setCrcCalc_err (v : Word) (s : State) : (s.setCrcCalc v).err = s.err := rfl
@[simp] theorem State.setCrcCalc_matched (v : Word) (s : State) : (s.setCrcCalc v).matched = s.matched := rfl
@[simp] theorem State.setCrcCalc_ended (v : Word) (s : State) : (s.setCrcCalc v).ended = s.ended := rfl
@[simp] theorem State.setCrcCalc_dbuf (v : Word) (s : State) : (s.setCrcCalc v).dbuf = s.dbuf := rfl
@[simp] theorem State.setCrcCalc_ipos (v : Word) (s : State) : (s.setCrcCalc v).ipos = s.ipos := rfl
@[simp] theorem State.setCrcCalc_out (v : Word) (s : State) : (s.setCrcCalc v).out = s.out := rfl
@[simp] theorem State.setCrcCalc_par (v : Word) (s : State) : (s.setCrcCalc v).par = s.par := rfl
@[simp] theorem State.setCrcCalc_host (v : Word) (s : State) : (s.setCrcCalc v).host = s.host := rfl

/-! ## setErr -/

@[simp] theorem State.setErr_lengthReg (v : BitVec 4) (s : State) : (s.setErr v).lengthReg = s.lengthReg := rfl
@[simp] theorem State.setErr_typeReg (v : BitVec 4) (s : State) : (s.setErr v).typeReg = s.typeReg := rfl
@[simp] theorem State.setErr_crcReg (v : BitVec 4) (s : State) : (s.setErr v).crcReg = s.crcReg := rfl
@[simp] theorem State.setErr_crcCalc (v : BitVec 4) (s : State) : (s.setErr v).crcCalc = s.crcCalc := rfl
@[simp] theorem State.setErr_err (v : BitVec 4) (s : State) : (s.setErr v).err = v := rfl
@[simp] theorem State.setErr_matched (v : BitVec 4) (s : State) : (s.setErr v).matched = s.matched := rfl
@[simp] theorem State.setErr_ended (v : BitVec 4) (s : State) : (s.setErr v).ended = s.ended := rfl
@[simp] theorem State.setErr_dbuf (v : BitVec 4) (s : State) : (s.setErr v).dbuf = s.dbuf := rfl
@[simp] theorem State.setErr_ipos (v : BitVec 4) (s : State) : (s.setErr v).ipos = s.ipos := rfl
@[simp] theorem State.setErr_out (v : BitVec 4) (s : State) : (s.setErr v).out = s.out := rfl
@[simp] theorem State.setErr_par (v : BitVec 4) (s : State) : (s.setErr v).par = s.par := rfl
@[simp] theorem State.setErr_host (v : BitVec 4) (s : State) : (s.setErr v).host = s.host := rfl

/-! ## setMatched -/

@[simp] theorem State.setMatched_lengthReg (v : Bool) (s : State) : (s.setMatched v).lengthReg = s.lengthReg := rfl
@[simp] theorem State.setMatched_typeReg (v : Bool) (s : State) : (s.setMatched v).typeReg = s.typeReg := rfl
@[simp] theorem State.setMatched_crcReg (v : Bool) (s : State) : (s.setMatched v).crcReg = s.crcReg := rfl
@[simp] theorem State.setMatched_crcCalc (v : Bool) (s : State) : (s.setMatched v).crcCalc = s.crcCalc := rfl
@[simp] theorem State.setMatched_err (v : Bool) (s : State) : (s.setMatched v).err = s.err := rfl
@[simp] theorem State.setMatched_matched (v : Bool) (s : State) : (s.setMatched v).matched = v := rfl
@[simp] theorem State.setMatched_ended (v : Bool) (s : State) : (s.setMatched v).ended = s.ended := rfl
@[simp] theorem State.setMatched_dbuf (v : Bool) (s : State) : (s.setMatched v).dbuf = s.dbuf := rfl
@[simp] theorem State.setMatched_ipos (v : Bool) (s : State) : (s.setMatched v).ipos = s.ipos := rfl
@[simp] theorem State.setMatched_out (v : Bool) (s : State) : (s.setMatched v).out = s.out := rfl
@[simp] theorem State.setMatched_par (v : Bool) (s : State) : (s.setMatched v).par = s.par := rfl
@[simp] theorem State.setMatched_host (v : Bool) (s : State) : (s.setMatched v).host = s.host := rfl

/-! ## setEnded -/

@[simp] theorem State.setEnded_lengthReg (v : Bool) (s : State) : (s.setEnded v).lengthReg = s.lengthReg := rfl
@[simp] theorem State.setEnded_typeReg (v : Bool) (s : State) : (s.setEnded v).typeReg = s.typeReg := rfl
@[simp] theorem State.setEnded_crcReg (v : Bool) (s : State) : (s.setEnded v).crcReg = s.crcReg := rfl
@[simp] theorem State.setEnded_crcCalc (v : Bool) (s : State) : (s.setEnded v).crcCalc = s.crcCalc := rfl
@[simp] theorem State.setEnded_err (v : Bool) (s : State) : (s.setEnded v).err = s.err := rfl
@[simp] theorem State.setEnded_matched (v : Bool) (s : State) : (s.setEnded v).matched = s.matched := rfl
@[simp] theorem State.setEnded_ended (v : Bool) (s : State) : (s.setEnded v).ended = v := rfl
@[simp] theorem State.setEnded_dbuf (v : Bool) (s : State) : (s.setEnded v).dbuf = s.dbuf := rfl
@[simp] theorem State.setEnded_ipos (v : Bool) (s : State) : (s.setEnded v).ipos = s.ipos := rfl
@[simp] theorem State.setEnded_out (v : Bool) (s : State) : (s.setEnded v).out = s.out := rfl
@[simp] theorem State.setEnded_par (v : Bool) (s : State) : (s.setEnded v).par = s.par := rfl
@[simp] theorem State.setEnded_host (v : Bool) (s : State) : (s.setEnded v).host = s.host := rfl

/-! ## setDbuf -/

@[simp] theorem State.setDbuf_lengthReg (v : Memory) (s : State) : (s.setDbuf v).lengthReg = s.lengthReg := rfl
@[simp] theorem State.setDbuf_typeReg (v : Memory) (s : State) : (s.setDbuf v).typeReg = s.typeReg := rfl
@[simp] theorem State.setDbuf_crcReg (v : Memory) (s : State) : (s.setDbuf v).crcReg = s.crcReg := rfl
@[simp] theorem State.setDbuf_crcCalc (v : Memory) (s : State) : (s.setDbuf v).crcCalc = s.crcCalc := rfl
@[simp] theorem State.setDbuf_err (v : Memory) (s : State) : (s.setDbuf v).err = s.err := rfl
@[simp] theorem State.setDbuf_matched (v : Memory) (s : State) : (s.setDbuf v).matched = s.matched := rfl
@[simp] theorem State.setDbuf_ended (v : Memory) (s : State) : (s.setDbuf v).ended = s.ended := rfl
@[simp] theorem State.setDbuf_dbuf (v : Memory) (s : State) : (s.setDbuf v).dbuf = v := rfl
@[simp] theorem State.setDbuf_ipos (v : Memory) (s : State) : (s.setDbuf v).ipos = s.ipos := rfl
@[simp] theorem State.setDbuf_out (v : Memory) (s : State) : (s.setDbuf v).out = s.out := rfl
@[simp] theorem State.setDbuf_par (v : Memory) (s : State) : (s.setDbuf v).par = s.par := rfl
@[simp] theorem State.setDbuf_host (v : Memory) (s : State) : (s.setDbuf v).host = s.host := rfl

/-! ## setIpos -/

@[simp] theorem State.setIpos_lengthReg (v : Nat) (s : State) : (s.setIpos v).lengthReg = s.lengthReg := rfl
@[simp] theorem State.setIpos_typeReg (v : Nat) (s : State) : (s.setIpos v).typeReg = s.typeReg := rfl
@[simp] theorem State.setIpos_crcReg (v : Nat) (s : State) : (s.setIpos v).crcReg = s.crcReg := rfl
@[simp] theorem State.setIpos_crcCalc (v : Nat) (s : State) : (s.setIpos v).crcCalc = s.crcCalc := rfl
@[simp] theorem State.setIpos_err (v : Nat) (s : State) : (s.setIpos v).err = s.err := rfl
@[simp] theorem State.setIpos_matched (v : Nat) (s : State) : (s.setIpos v).matched = s.matched := rfl
@[simp] theorem State.setIpos_ended (v : Nat) (s : State) : (s.setIpos v).ended = s.ended := rfl
@[simp] theorem State.setIpos_dbuf (v : Nat) (s : State) : (s.setIpos v).dbuf = s.dbuf := rfl
@[simp] theorem State.setIpos_ipos (v : Nat) (s : State) : (s.setIpos v).ipos = v := rfl
@[simp] theorem State.setIpos_out (v : Nat) (s : State) : (s.setIpos v).out = s.out := rfl
@[simp] theorem State.setIpos_par (v : Nat) (s : State) : (s.setIpos v).par = s.par := rfl
@[simp] theorem State.setIpos_host (v : Nat) (s : State) : (s.setIpos v).host = s.host := rfl

/-! ## setOut -/

@[simp] theorem State.setOut_lengthReg (v : List Byte) (s : State) : (s.setOut v).lengthReg = s.lengthReg := rfl
@[simp] theorem State.setOut_typeReg (v : List Byte) (s : State) : (s.setOut v).typeReg = s.typeReg := rfl
@[simp] theorem State.setOut_crcReg (v : List Byte) (s : State) : (s.setOut v).crcReg = s.crcReg := rfl
@[simp] theorem State.setOut_crcCalc (v : List Byte) (s : State) : (s.setOut v).crcCalc = s.crcCalc := rfl
@[simp] theorem State.setOut_err (v : List Byte) (s : State) : (s.setOut v).err = s.err := rfl
@[simp] theorem State.setOut_matched (v : List Byte) (s : State) : (s.setOut v).matched = s.matched := rfl
@[simp] theorem State.setOut_ended (v : List Byte) (s : State) : (s.setOut v).ended = s.ended := rfl
@[simp] theorem State.setOut_dbuf (v : List Byte) (s : State) : (s.setOut v).dbuf = s.dbuf := rfl
@[simp] theorem State.setOut_ipos (v : List Byte) (s : State) : (s.setOut v).ipos = s.ipos := rfl
@[simp] theorem State.setOut_out (v : List Byte) (s : State) : (s.setOut v).out = v := rfl
@[simp] theorem State.setOut_par (v : List Byte) (s : State) : (s.setOut v).par = s.par := rfl
@[simp] theorem State.setOut_host (v : List Byte) (s : State) : (s.setOut v).host = s.host := rfl

/-! ## setHost -/

@[simp] theorem State.setHost_lengthReg (v : HostPort) (s : State) : (s.setHost v).lengthReg = s.lengthReg := rfl
@[simp] theorem State.setHost_typeReg (v : HostPort) (s : State) : (s.setHost v).typeReg = s.typeReg := rfl
@[simp] theorem State.setHost_crcReg (v : HostPort) (s : State) : (s.setHost v).crcReg = s.crcReg := rfl
@[simp] theorem State.setHost_crcCalc (v : HostPort) (s : State) : (s.setHost v).crcCalc = s.crcCalc := rfl
@[simp] theorem State.setHost_err (v : HostPort) (s : State) : (s.setHost v).err = s.err := rfl
@[simp] theorem State.setHost_matched (v : HostPort) (s : State) : (s.setHost v).matched = s.matched := rfl
@[simp] theorem State.setHost_ended (v : HostPort) (s : State) : (s.setHost v).ended = s.ended := rfl
@[simp] theorem State.setHost_dbuf (v : HostPort) (s : State) : (s.setHost v).dbuf = s.dbuf := rfl
@[simp] theorem State.setHost_ipos (v : HostPort) (s : State) : (s.setHost v).ipos = s.ipos := rfl
@[simp] theorem State.setHost_out (v : HostPort) (s : State) : (s.setHost v).out = s.out := rfl
@[simp] theorem State.setHost_par (v : HostPort) (s : State) : (s.setHost v).par = s.par := rfl
@[simp] theorem State.setHost_host (v : HostPort) (s : State) : (s.setHost v).host = v := rfl

/-! ## raise -/

@[simp] theorem State.raise_lengthReg (e : ErrorName) (s : State) : (s.raise e).lengthReg = s.lengthReg := rfl
@[simp] theorem State.raise_typeReg (e : ErrorName) (s : State) : (s.raise e).typeReg = s.typeReg := rfl
@[simp] theorem State.raise_crcReg (e : ErrorName) (s : State) : (s.raise e).crcReg = s.crcReg := rfl
@[simp] theorem State.raise_crcCalc (e : ErrorName) (s : State) : (s.raise e).crcCalc = s.crcCalc := rfl
@[simp] theorem State.raise_err (e : ErrorName) (s : State) : (s.raise e).err = e.code := rfl
@[simp] theorem State.raise_matched (e : ErrorName) (s : State) : (s.raise e).matched = s.matched := rfl
@[simp] theorem State.raise_ended (e : ErrorName) (s : State) : (s.raise e).ended = s.ended := rfl
@[simp] theorem State.raise_dbuf (e : ErrorName) (s : State) : (s.raise e).dbuf = s.dbuf := rfl
@[simp] theorem State.raise_ipos (e : ErrorName) (s : State) : (s.raise e).ipos = s.ipos := rfl
@[simp] theorem State.raise_out (e : ErrorName) (s : State) : (s.raise e).out = s.out := rfl
@[simp] theorem State.raise_par (e : ErrorName) (s : State) : (s.raise e).par = s.par := rfl
@[simp] theorem State.raise_host (e : ErrorName) (s : State) : (s.raise e).host = s.host := rfl

/-! ## resetEvent -/

@[simp] theorem State.resetEvent_lengthReg (s : State) : s.resetEvent.lengthReg = some 0 := rfl
@[simp] theorem State.resetEvent_typeReg (s : State) : s.resetEvent.typeReg = some 0 := rfl
@[simp] theorem State.resetEvent_crcReg (s : State) : s.resetEvent.crcReg = some 0 := rfl
@[simp] theorem State.resetEvent_crcCalc (s : State) : s.resetEvent.crcCalc = 0 := rfl
@[simp] theorem State.resetEvent_err (s : State) : s.resetEvent.err = 0 := rfl
@[simp] theorem State.resetEvent_matched (s : State) : s.resetEvent.matched = false := rfl
@[simp] theorem State.resetEvent_ended (s : State) : s.resetEvent.ended = false := rfl
@[simp] theorem State.resetEvent_dbuf (s : State) : s.resetEvent.dbuf = [] := rfl
@[simp] theorem State.resetEvent_ipos (s : State) : s.resetEvent.ipos = s.ipos := rfl
@[simp] theorem State.resetEvent_out (s : State) : s.resetEvent.out = s.out := rfl
@[simp] theorem State.resetEvent_par (s : State) : s.resetEvent.par = s.par := rfl
@[simp] theorem State.resetEvent_host (s : State) : s.resetEvent.host = s.host := rfl

/-! ## failRead -/

@[simp] theorem State.failRead_lengthReg (e : ErrorName) (s : State) : (s.failRead e).lengthReg = none := rfl
@[simp] theorem State.failRead_typeReg (e : ErrorName) (s : State) : (s.failRead e).typeReg = none := rfl
@[simp] theorem State.failRead_crcReg (e : ErrorName) (s : State) : (s.failRead e).crcReg = none := rfl
@[simp] theorem State.failRead_crcCalc (e : ErrorName) (s : State) : (s.failRead e).crcCalc = s.crcCalc := rfl
@[simp] theorem State.failRead_err (e : ErrorName) (s : State) : (s.failRead e).err = e.code := rfl
@[simp] theorem State.failRead_matched (e : ErrorName) (s : State) : (s.failRead e).matched = s.matched := rfl
@[simp] theorem State.failRead_ended (e : ErrorName) (s : State) : (s.failRead e).ended = false := rfl
@[simp] theorem State.failRead_dbuf (e : ErrorName) (s : State) : (s.failRead e).dbuf = [] := rfl
@[simp] theorem State.failRead_ipos (e : ErrorName) (s : State) : (s.failRead e).ipos = s.ipos := rfl
@[simp] theorem State.failRead_out (e : ErrorName) (s : State) : (s.failRead e).out = s.out := rfl
@[simp] theorem State.failRead_par (e : ErrorName) (s : State) : (s.failRead e).par = s.par := rfl
@[simp] theorem State.failRead_host (e : ErrorName) (s : State) : (s.failRead e).host = s.host := rfl

/-! ## finishRead -/

@[simp] theorem State.finishRead_lengthReg (len typ crc : Word) (s : State) : (s.finishRead len typ crc).lengthReg = some len := rfl
@[simp] theorem State.finishRead_typeReg (len typ crc : Word) (s : State) : (s.finishRead len typ crc).typeReg = some typ := rfl
@[simp] theorem State.finishRead_crcReg (len typ crc : Word) (s : State) : (s.finishRead len typ crc).crcReg = some crc := rfl
@[simp] theorem State.finishRead_crcCalc (len typ crc : Word) (s : State) : (s.finishRead len typ crc).crcCalc = s.crcCalc := rfl
@[simp] theorem State.finishRead_err (len typ crc : Word) (s : State) : (s.finishRead len typ crc).err = s.err := rfl
@[simp] theorem State.finishRead_matched (len typ crc : Word) (s : State) : (s.finishRead len typ crc).matched = s.matched := rfl
@[simp] theorem State.finishRead_ended (len typ crc : Word) (s : State) : (s.finishRead len typ crc).ended = endFlagOf typ := rfl
@[simp] theorem State.finishRead_dbuf (len typ crc : Word) (s : State) : (s.finishRead len typ crc).dbuf = s.dbuf := rfl
@[simp] theorem State.finishRead_ipos (len typ crc : Word) (s : State) : (s.finishRead len typ crc).ipos = s.ipos := rfl
@[simp] theorem State.finishRead_out (len typ crc : Word) (s : State) : (s.finishRead len typ crc).out = s.out := rfl
@[simp] theorem State.finishRead_par (len typ crc : Word) (s : State) : (s.finishRead len typ crc).par = s.par := rfl
@[simp] theorem State.finishRead_host (len typ crc : Word) (s : State) : (s.finishRead len typ crc).host = s.host := rfl

/-! ## answer -/

@[simp] theorem State.answer_lengthReg (r : Reply) (s : State) : (s.answer r).lengthReg = s.lengthReg := rfl
@[simp] theorem State.answer_typeReg (r : Reply) (s : State) : (s.answer r).typeReg = s.typeReg := rfl
@[simp] theorem State.answer_crcReg (r : Reply) (s : State) : (s.answer r).crcReg = s.crcReg := rfl
@[simp] theorem State.answer_crcCalc (r : Reply) (s : State) : (s.answer r).crcCalc = s.crcCalc := rfl
@[simp] theorem State.answer_err (r : Reply) (s : State) : (s.answer r).err = s.err := rfl
@[simp] theorem State.answer_matched (r : Reply) (s : State) : (s.answer r).matched = s.matched := rfl
@[simp] theorem State.answer_ended (r : Reply) (s : State) : (s.answer r).ended = s.ended := rfl
@[simp] theorem State.answer_dbuf (r : Reply) (s : State) : (s.answer r).dbuf = s.dbuf := rfl
@[simp] theorem State.answer_ipos (r : Reply) (s : State) : (s.answer r).ipos = s.ipos := rfl
@[simp] theorem State.answer_out (r : Reply) (s : State) : (s.answer r).out = s.out := rfl
@[simp] theorem State.answer_par (r : Reply) (s : State) : (s.answer r).par = s.par := rfl
@[simp] theorem State.answer_host (r : Reply) (s : State) : (s.answer r).host = { s.host with reply := some r } := rfl

/-! ## answerFree -/

@[simp] theorem State.answerFree_lengthReg (r : Nat → Reply) (s : State) : (s.answerFree r).lengthReg = s.lengthReg := rfl
@[simp] theorem State.answerFree_typeReg (r : Nat → Reply) (s : State) : (s.answerFree r).typeReg = s.typeReg := rfl
@[simp] theorem State.answerFree_crcReg (r : Nat → Reply) (s : State) : (s.answerFree r).crcReg = s.crcReg := rfl
@[simp] theorem State.answerFree_crcCalc (r : Nat → Reply) (s : State) : (s.answerFree r).crcCalc = s.crcCalc := rfl
@[simp] theorem State.answerFree_err (r : Nat → Reply) (s : State) : (s.answerFree r).err = s.err := rfl
@[simp] theorem State.answerFree_matched (r : Nat → Reply) (s : State) : (s.answerFree r).matched = s.matched := rfl
@[simp] theorem State.answerFree_ended (r : Nat → Reply) (s : State) : (s.answerFree r).ended = s.ended := rfl
@[simp] theorem State.answerFree_dbuf (r : Nat → Reply) (s : State) : (s.answerFree r).dbuf = s.dbuf := rfl
@[simp] theorem State.answerFree_ipos (r : Nat → Reply) (s : State) : (s.answerFree r).ipos = s.ipos := rfl
@[simp] theorem State.answerFree_out (r : Nat → Reply) (s : State) : (s.answerFree r).out = s.out := rfl
@[simp] theorem State.answerFree_par (r : Nat → Reply) (s : State) : (s.answerFree r).par = s.par := rfl
@[simp] theorem State.answerFree_host (r : Nat → Reply) (s : State) : (s.answerFree r).host = { s.host with reply := some (r s.host.drawn), drawn := s.host.drawn + 1 } := rfl

/-! ## answerRegister: only the host's port changes -/

/-- A read of a record register changes nothing but the host's port (rule R176). -/
theorem State.answerRegister_frame (v : Option Word) (s : State) :
    ∃ p, s.answerRegister v = s.setHost p ∧ p.pending = s.host.pending := by
  cases v with
  | some w => exact ⟨_, rfl, rfl⟩
  | none => exact ⟨_, rfl, rfl⟩

/-! ## unlessSticky, the one sticky test -/

/-- With ERR zero the body runs (rule R78). -/
@[simp] theorem unlessSticky_clear {s : State} (h : s.err = 0) (body : State → Result) :
    unlessSticky s body = body s := if_pos h

/-- With ERR nonzero nothing happens (rule R194). -/
@[simp] theorem unlessSticky_set {s : State} (h : s.err ≠ 0) (body : State → Result) :
    unlessSticky s body = .next s := if_neg h

/-- Everything the sticky test can do. -/
theorem unlessSticky_cases {s : State} {body : State → Result} {r : Result}
    (h : unlessSticky s body = r) : (s.err = 0 ∧ body s = r) ∨ (s.err ≠ 0 ∧ r = .next s) := by
  unfold unlessSticky at h
  split at h
  · exact .inl ⟨‹_›, h⟩
  · exact .inr ⟨‹_›, h.symm⟩

/-! ## The status word -/

/-- STATUS bits [3:0] are ERR (rule R28). -/
theorem State.statusWord_err (s : State) : s.statusWord.extractLsb' 0 4 = s.err := by
  unfold State.statusWord
  generalize s.ended = a, s.matched = b, s.err = e
  revert a b e
  decide

end Sys2Proof.Machine
end

