-- ==== Sys2Proof/Laws/Streams.lean ====
section
/-! SUPPORT. What the two stream operations can do, said once. -/

namespace Sys2Proof.Machine

@[simp] theorem State.setIpos_self (s : State) : s.setIpos s.ipos = s := rfl
@[simp] theorem State.setOut_self (s : State) : s.setOut s.out = s := rfl
@[simp] theorem State.setIpos_setIpos (s : State) (a b : Nat) : (s.setIpos a).setIpos b = s.setIpos b := rfl
@[simp] theorem State.setOut_setOut (s : State) (a b : List Byte) : (s.setOut a).setOut b = s.setOut b := rfl

/-- `InByte()` gives the head of `IN[ipos..)` and moves the cursor by one (rule R12). -/
theorem State.inByte_cons {s : State} {b : Byte} {bs : List Byte} (h : s.rest = b :: bs) :
    s.inByte = some (b, s.setIpos (s.ipos + 1)) := by
  have : s.par.input[s.ipos]? = some b := by
    rw [← List.head?_drop]; simp [State.rest] at h; simp [h]
  simp [State.inByte, this]

/-- `InByte()` answers `EOS` where `IN[ipos..)` is empty (rule R12). -/
theorem State.inByte_nil {s : State} (h : s.rest = []) : s.inByte = none := by
  have : s.par.input[s.ipos]? = none := by
    rw [← List.head?_drop]; simp [State.rest] at h; simp [h]
  simp [State.inByte, this]

/-- The rest of `IN` after the cursor has moved on. -/
theorem State.rest_setIpos_add (s : State) (n : Nat) : (s.setIpos (s.ipos + n)).rest = s.rest.drop n := by
  simp [State.rest, List.drop_drop]

/-- Everything a run of `InByte()` can do: the bytes are the first `n` of the rest, or all of it, and the cursor
has moved by as many (rule R131). -/
theorem State.inBytes_eq (n : Nat) (s : State) :
    s.inBytes n = (s.rest.take n, s.setIpos (s.ipos + min n s.rest.length)) := by
  induction n generalizing s with
  | zero => simp [State.inBytes]
  | succ n ih =>
    cases h : s.rest with
    | nil => simp [State.inBytes, State.inByte_nil h]
    | cons b bs =>
      have hr : (s.setIpos (s.ipos + 1)).rest = bs := by simp [State.rest_setIpos_add, h]
      simp only [State.inBytes, State.inByte_cons h, ih, hr]
      simp; congr 1; omega

/-- Everything an emission of defined bytes can do where the sink takes them all (rule R162). -/
theorem emitCells_room {bs : List Byte} {s : State} (h : s.hasRoom bs.length) :
    emitCells (bs.map some) s = .next (s.setOut (s.out ++ bs)) := by
  induction bs generalizing s with
  | nil => simp [emitCells]
  | cons b rest ih =>
    have hacc : s.par.accepts s.out.length = true := by
      unfold Params.accepts
      cases hl : s.par.outLimit with
      | none => rfl
      | some l => have := h l hl; simp at this; simp; omega
    simp only [List.map_cons, emitCells, State.outByte, hacc, if_true]
    rw [ih]
    · simp
    · intro l hl
      have := h l hl
      simp at this ⊢
      omega

/-- Everything an emission of defined bytes can do where the sink stops early: exactly the bytes there was room
for, then `WriteFailure` (rule R164). -/
theorem emitCells_full {bs : List Byte} {s : State} {l : Nat} (hl : s.par.outLimit = some l)
    (h0 : s.out.length ≤ l) (h : l < s.out.length + bs.length) :
    emitCells (bs.map some) s =
      .next ((s.setOut (s.out ++ bs.take (l - s.out.length))).raise .writeFailure) := by
  induction bs generalizing s with
  | nil => simp at h; omega
  | cons b rest ih =>
    simp only [List.map_cons, emitCells, State.outByte, Params.accepts, hl]
    by_cases hlt : s.out.length < l
    · rw [if_pos (by simpa using hlt)]
      simp only [List.length_cons] at h
      have := ih (s := s.setOut (s.out ++ [b])) (by simpa using hl) (by simp; omega)
        (by simp; omega)
      obtain ⟨k, hk⟩ : ∃ k, l - s.out.length = k + 1 := ⟨l - s.out.length - 1, by omega⟩
      have hk' : l - (s.out.length + 1) = k := by omega
      simpa [hk, hk'] using this
    · have : l - s.out.length = 0 := by omega
      simp [hlt, this]

/-- Everything an emission can do: it answers a next state in which nothing but OUT and ERR differs, or it is
refused for an `undef` cell. -/
theorem emitCells_next {l : List (Option Byte)} {s t : State} (h : emitCells l s = .next t) :
    ∃ bs, t = s.setOut (s.out ++ bs) ∨ t = (s.setOut (s.out ++ bs)).raise .writeFailure := by
  induction l generalizing s with
  | nil => cases h; exact ⟨[], .inl (by simp)⟩
  | cons c rest ih =>
    cases c with
    | none => cases h
    | some b =>
      simp only [emitCells, State.outByte] at h
      split_ifs at h
      · obtain ⟨bs, h | h⟩ := ih h
        · exact ⟨b :: bs, .inl (by simpa using h)⟩
        · exact ⟨b :: bs, .inr (by simpa using h)⟩
      · cases h; exact ⟨[], .inr (by simp)⟩

end Sys2Proof.Machine
end

