-- ==== Sys2Proof/Laws/Wire.lean ====
section
/-! SUPPORT. The wire fields and the cells of a record, and the shape of a read of four bytes. -/

namespace Sys2Proof.Machine

@[simp] theorem sig_length : sig.length = 8 := rfl
@[simp] theorem wireBytes_length (v : Word) : (wireBytes v).length = 4 := rfl
@[simp] theorem cells_length (n : Nat) (m : Memory) : (cells n m).length = n := by simp [cells]

/-- The first `n` cells, when they hold the bytes `ds` (rule R35). -/
theorem cells_eq_map {n : Nat} {m : Memory} {ds : List Byte} (hlen : ds.length = n)
    (h : ∀ j, j < n → m.read j = ds[j]?) : cells n m = ds.map some := by
  apply List.ext_getElem
  · simp [hlen]
  · intro j h1 h2
    have hj : j < n := by simpa using h1
    simp [cells, h j hj, List.getElem?_eq_getElem (show j < ds.length by omega)]

/-- Where cells 0 to `n - 1` are all defined, they hold some `n` bytes. -/
theorem exists_bytes_of_defined {n : Nat} {m : Memory} (h : ∀ j, j < n → (m.read j).isSome = true) :
    ∃ ds : List Byte, ds.length = n ∧ ∀ j, j < n → m.read j = ds[j]? := by
  induction n with
  | zero => exact ⟨[], rfl, by simp⟩
  | succ n ih =>
    obtain ⟨ds, hl, hd⟩ := ih (fun j hj => h j (by omega))
    obtain ⟨b, hb⟩ := Option.isSome_iff_exists.mp (h n (by omega))
    refine ⟨ds ++ [b], by simp [hl], fun j hj => ?_⟩
    by_cases hjn : j = n
    · subst hjn; simp [hb, hl]
    · rw [hd j (by omega), List.getElem?_append_left (by omega)]

/-- The length check, when it finds nothing (rule R148, rule R163). -/
theorem lengthCheck_none {p : Params} {n : Word} :
    lengthCheck p n = none ↔ n.toNat ≤ Config.lenMax ∧ n.toNat ≤ p.dbufCap := by
  unfold lengthCheck
  split_ifs with h1 h2
  · simp; omega
  · simp; omega
  · simp; omega

/-- Everything the length check can find (rule R148, rule R163). -/
theorem lengthCheck_some {p : Params} {n : Word} {e : ErrorName} (h : lengthCheck p n = some e) :
    (e = .lengthOverflow ∧ Config.lenMax < n.toNat) ∨
      (e = .allocationFailure ∧ n.toNat ≤ Config.lenMax ∧ p.dbufCap < n.toNat) := by
  unfold lengthCheck at h
  split_ifs at h with h1 h2
  · exact .inl ⟨by simpa using h.symm, h1⟩
  · exact .inr ⟨by simpa using h.symm, by omega, h2⟩

/-- A four-byte field that is there in full: the cursor moves by four (rule R83). -/
theorem readField_full {s : State} {b0 b1 b2 b3 : Byte} {tail : List Byte}
    (h : s.rest = b0 :: b1 :: b2 :: b3 :: tail) (short : State → Result)
    (full : Byte → Byte → Byte → Byte → State → Result) :
    readField s short full = full b0 b1 b2 b3 (s.setIpos (s.ipos + 4)) := by
  simp [readField, State.inBytes_eq, h]

/-- A four-byte field cut short by the end of the stream: what remained is consumed (rule R122). -/
theorem readField_short {s : State} (h : s.rest.length < 4) (short : State → Result)
    (full : Byte → Byte → Byte → Byte → State → Result) :
    readField s short full = short (s.setIpos (s.ipos + s.rest.length)) := by
  unfold readField
  rw [State.inBytes_eq, List.take_of_length_le (by omega), Nat.min_eq_right (by omega)]
  match hr : s.rest with
  | [] => rfl
  | [_] => rfl
  | [_, _] => rfl
  | [_, _, _] => rfl
  | _ :: _ :: _ :: _ :: _ => rw [hr] at h; simp at h; omega

/-- The two cases of a four-byte field: it is there in full, or fewer than four bytes remain (rule R122). -/
theorem State.rest_four (s : State) :
    (∃ b0 b1 b2 b3 tail, s.rest = b0 :: b1 :: b2 :: b3 :: tail) ∨ s.rest.length < 4 := by
  match s.rest with
  | [] => right; simp
  | [_] => right; simp
  | [_, _] => right; simp
  | [_, _, _] => right; simp
  | b0 :: b1 :: b2 :: b3 :: tail => left; exact ⟨b0, b1, b2, b3, tail, rfl⟩

end Sys2Proof.Machine
end

