-- ==== Sys2Proof/Tests/Slice0.lean ====
section
/-! SUPPORT. Small tests, each on one step, with expected results from 95_test_vectors.md (the vector's id stands in
the comment), and for every statement with hypotheses a state and operands that meet them. -/

namespace Sys2Proof.Tests

open Sys2Proof Sys2Proof.Machine

/-- The launch state of a run on `input`, with the sink's limit and the buffer's capacity. -/
def on (input : List Byte) (limit : Option Nat) (cap : Nat) : State :=
  State.launch { input := input, outLimit := limit, dbufCap := cap }

/-- The record registers and the first cells of DBUF as the host writes them. -/
def withRecord (len typ crc : Word) (ds : List Byte) (s : State) : State :=
  { s with lengthReg := some len, typeReg := some typ, crcReg := some crc, dbuf := s.dbuf.writeRange 0 ds }

/-- The outcome is a next state that passes `p`. -/
def nextWith (r : Result) (p : State → Bool) : Bool :=
  match r with
  | .next s => p s
  | .fault _ => false
  | .refused _ => false

/-- The outcome is the refusal `w`. -/
def refusedWith (r : Result) (w : Refusal) : Bool :=
  match r with
  | .next _ => false
  | .fault _ => false
  | .refused x => decide (x = w)

/-- The host's next step is `h`. -/
def issuing (h : HostStep) (s : State) : State := { s with host := { s.host with pending := [h] } }

/-! ## Well-formedness refuses -/

theorem test_wf_regRead_above_7 : (HostStep.regRead 8).wellFormed = false := by decide
theorem test_wf_regWrite_above_7 : (HostStep.regWrite 8 0).wellFormed = false := by decide
theorem test_wf_regNarrow : HostStep.regNarrow.wellFormed = false := by decide
theorem test_wf_bufWide : HostStep.bufWide.wellFormed = false := by decide
theorem test_wf_secondHost : HostStep.secondHost.wellFormed = false := by decide
theorem test_wf_cap_above_lenMax :
    Params.wellFormed { input := [], outLimit := none, dbufCap := 0x80000000 } = false := by decide
theorem test_wf_cap_at_lenMax :
    Params.wellFormed { input := [], outLimit := none, dbufCap := 0x7FFFFFFF } = true := by decide

/-! ## Decode: V-D1 to V-D7 are reserved -/

theorem test_decode_reserved :
    [0x00000000#32, 0x00000007#32, 0x000000FF#32].map decode =
      [.reserved .opcode, .reserved .opcode, .reserved .opcode] := by decide
theorem test_decode_reserved_high :
    [0x00000100#32, 0x00000101#32, 0x80000004#32, 0xFFFFFFFF#32].map decode =
      [.reserved .zeroField, .reserved .zeroField, .reserved .zeroField, .reserved .zeroField] := by
  decide
theorem test_decode_table_word : decodeTableWord 32 4 = some .rdchunk := by decide

/-! ## The commands -/

/-- V-SD2: the last byte differs: 8 consumed, MATCH 0, no error. -/
theorem test_sigdet_mismatch :
    nextWith (exec .sigdet (on [0x89, 0x50, 0x4E, 0x47, 0x0D, 0x0A, 0x1A, 0x0B, 0x00] none 64))
      (fun s => s.ipos == 8 && s.statusWord == 0x00000000) = true := by decide

/-- V-SD5: one byte short. -/
theorem test_sigdet_short :
    nextWith (exec .sigdet (on [0x89, 0x50, 0x4E, 0x47, 0x0D, 0x0A, 0x1A] none 64))
      (fun s => s.ipos == 7 && s.statusWord == 0x00000007) = true := by decide

/-- V-SS5: seven good bytes, then the signature, `k = 7`. -/
theorem test_sigscan_false_start :
    nextWith (exec .sigscan (on [0x89, 0x50, 0x4E, 0x47, 0x0D, 0x0A, 0x1A, 0x89, 0x50, 0x4E, 0x47, 0x0D,
        0x0A, 0x1A, 0x0A, 0x77] none 64))
      (fun s => s.ipos == 15 && s.statusWord == 0x00000010) = true := by decide

/-- V-SS6: the stream ends inside a candidate. -/
theorem test_sigscan_exhausted :
    nextWith (exec .sigscan (on [0x00, 0x11, 0x22, 0x89, 0x50, 0x4E, 0x47] none 64))
      (fun s => s.ipos == 7 && s.statusWord == 0x00000007) = true := by decide

/-- V-SW2: room for exactly 8. -/
theorem test_sigwr_room :
    nextWith (exec .sigwr (on [] (some 8) 64))
      (fun s => s.out == [0x89, 0x50, 0x4E, 0x47, 0x0D, 0x0A, 0x1A, 0x0A] &&
        s.statusWord == 0x00000000) = true := by decide

/-- V-SW4: the sink takes 3 bytes. -/
theorem test_sigwr_full :
    nextWith (exec .sigwr (on [] (some 3) 64))
      (fun s => s.out == [0x89, 0x50, 0x4E] && s.statusWord == 0x00000008) = true := by decide

/-- V-RC19: the buffer filled exactly, a wrong crc accepted. -/
theorem test_rdchunk_fills_buffer :
    nextWith (exec .rdchunk (on [0x00, 0x00, 0x00, 0x04, 0x49, 0x44, 0x41, 0x54, 0x01, 0x02, 0x03, 0x04,
        0xAA, 0xBB, 0xCC, 0xDD] none 4))
      (fun s => s.lengthReg == some 0x00000004 && s.typeReg == some 0x49444154 &&
        s.crcReg == some 0xAABBCCDD && s.dbuf == [(0, 0x01), (1, 0x02), (2, 0x03), (3, 0x04)] &&
        s.ipos == 16 && s.statusWord == 0x00000000) = true := by decide

/-- V-RC22: the two cells written are undefined again. -/
theorem test_rdchunk_truncated_data :
    nextWith (exec .rdchunk (on [0x00, 0x00, 0x00, 0x04, 0x49, 0x44, 0x41, 0x54, 0x01, 0x02] none 64))
      (fun s => s.lengthReg == none && s.typeReg == none && s.crcReg == none && s.dbuf == [] &&
        s.ipos == 10 && s.statusWord == 0x00000004) = true := by decide

/-- V-CC8: the check string split between TYPE and DBUF. -/
theorem test_crccalc_check_value :
    nextWith (exec .crccalc (withRecord 5 0x31323334 0 [0x35, 0x36, 0x37, 0x38, 0x39] (on [] none 64)))
      (fun s => s.crcCalc == 0xCBF43926 && s.statusWord == 0x00000000) = true := by decide +kernel

/-- V-CC14: cell 1 is undefined. -/
theorem test_crccalc_undef :
    refusedWith (exec .crccalc (withRecord 2 0x49444154 0 [0x00] (on [] none 64))) .undefCell = true := by
  decide

/-- V-WC8: neither the type nor the crc is checked. -/
theorem test_wrchunk_unchecked :
    nextWith (exec .wrchunk (withRecord 1 0x31203F00 0xDEADBEEF [0xAA] (on [] none 64)))
      (fun s => s.out == [0x00, 0x00, 0x00, 0x01, 0x31, 0x20, 0x3F, 0x00, 0xAA, 0xDE, 0xAD, 0xBE, 0xEF] &&
        s.statusWord == 0x00000000) = true := by decide

/-- V-WC7: cut inside the data. -/
theorem test_wrchunk_full :
    nextWith (exec .wrchunk (withRecord 6 0x504C5445 0x6CA1FD8E [0xFF, 0x00, 0x00, 0x00, 0x00, 0xFF]
        (on [] (some 10) 64)))
      (fun s => s.out == [0x00, 0x00, 0x00, 0x06, 0x50, 0x4C, 0x54, 0x45, 0xFF, 0x00] &&
        s.statusWord == 0x00000008) = true := by decide

/-- V-F5, V-F13 and the table's entries 1, 128 and 255 (rule R142). -/
theorem test_crc_values :
    [crc32 [0xFF], crc32 [0x49, 0x45, 0x4E, 0x44], crcTab 1, crcTab 128, crcTab 255] =
      [0xFF000000, 0xAE426082, 0x77073096, 0xEDB88320, 0x2D02EF8D] := by decide +kernel

/-! ## Host steps and the step -/

/-- V-D5: the low byte is SIGDET's, but the word is reserved. -/
theorem test_issue_reserved :
    nextWith (step (issuing (.regWrite 0 0x00000101) (on [0x89, 0x50, 0x4E, 0x47, 0x0D, 0x0A, 0x1A, 0x0A] none 64)))
      (fun s => s.ipos == 0 && s.statusWord == 0x0000000A) = true := by decide

/-- V-D9: MATCH survives a later error. -/
theorem test_issue_reserved_keeps_match :
    nextWith (step (issuing (.regWrite 0 0x00000007) { on [] none 64 with matched := true }))
      (fun s => s.statusWord == 0x0000001A) = true := by decide

/-- V-H3: DBUFCAP reads as the capacity. -/
theorem test_read_dbufcap :
    nextWith (step (issuing (.regRead 6) (on [] none 64)))
      (fun s => s.host.reply == some (.word 0x00000040)) = true := by decide

/-- V-H14: a write beyond the buffer is ignored. -/
theorem test_bufwrite_beyond :
    nextWith (step (issuing (.bufWrite 64 0x01) (on [] none 64))) (fun s => s.dbuf == []) = true := by decide

/-- V-H15: a read of an undefined cell draws a value, and the cell stays undefined. -/
theorem test_bufread_undef :
    nextWith (step (issuing (.bufRead 5) (on [] none 64)))
      (fun s => s.host.drawn == 1 && s.dbuf == []) = true := by decide

/-- V-D10: reset clears the sticky error and leaves the cursor where it stood. -/
theorem test_reset_keeps_cursor :
    nextWith (step (issuing .reset { on [0x89, 0x50, 0x4E, 0x47] none 64 with ipos := 4, err := 7#4 }))
      (fun s => s.ipos == 4 && s.statusWord == 0x00000000) = true := by decide

/-- The first command after reset: CRCCALC with TYPE = 0 and LENGTH = 0 (V-CC6). -/
theorem test_first_command_after_reset :
    nextWith (step (State.reset.withFetchWord 32 5)) (fun s => s.crcCalc == 0x2144DF1C) = true := by
  decide +kernel

/-- Rule R88: `SETTYPE "IHDR"` is `WR TYPE, 0x49484452`. -/
theorem test_settype : setTypeSteps 0x49 0x48 0x44 0x52 = [.regWrite 3 0x49484452] := by decide

/-! ## Witnesses: a state and operands that meet the hypotheses of each statement, one for each clause -/

/-- The 12 bytes of an `IEND` record (rule R136). -/
def iendWire : List Byte := [0x00, 0x00, 0x00, 0x00, 0x49, 0x45, 0x4E, 0x44, 0xAE, 0x42, 0x60, 0x82]

/-- A state with a one-byte record, its one cell defined, the buffer exactly full, and room for its 13 bytes. -/
def oneByte : State := withRecord 1 0x49444154 0x28387DE8 [0x00] (on [] (some 13) 1)

/-- The same record with no room for the last byte. -/
def oneByteTight : State := withRecord 1 0x49444154 0x28387DE8 [0x00] (on [] (some 12) 1)

/-- A record of two bytes whose second cell is `undef`. -/
def halfDefined (limit : Option Nat) : State := withRecord 2 0x49444154 0 [0x00] (on [] limit 2)

theorem witness_StreamPrimitives_byte :
    ∃ s : State, s.ipos < s.par.input.length := ⟨on [0x89] none 0, by decide⟩
theorem witness_StreamPrimitives_eos :
    ∃ s : State, s.par.input.length ≤ s.ipos := ⟨on [] none 0, by decide⟩
theorem witness_StreamPrimitives_ok :
    ∃ s : State, s.par.outLimit = some 1 ∧ ∀ l, s.par.outLimit = some l → s.out.length < l :=
  ⟨on [] (some 1) 0, rfl, fun l h => by cases h; decide⟩
theorem witness_StreamPrimitives_fail :
    ∃ (s : State) (l : Nat), s.par.outLimit = some l ∧ l ≤ s.out.length := ⟨on [] (some 0) 0, 0, by decide⟩
theorem witness_CommandWordUnique : ∃ (w : Word) (i : Instr), decode w = .command i := ⟨6, .wrchunk, by decide⟩
theorem witness_ReservedWords_zero : ∃ (s : State) (w : Word), (w.toNat = 0 ∨ 7 ≤ w.toNat) ∧ s.err = 0 :=
  ⟨on [] none 0, 0, by decide⟩
theorem witness_ReservedWords_seven : ∃ (s : State) (w : Word), 7 ≤ w.toNat ∧ s.err = 0 :=
  ⟨on [] none 0, 7, by decide⟩
theorem witness_CommandIssue_sticky : ∃ s : State, s.err ≠ 0 := ⟨{ on [] none 0 with err := 8#4 }, by decide⟩
theorem witness_CommandIssue_reserved :
    ∃ (s : State) (w : Word), s.err = 0 ∧
      (w.toNat / 256 ≠ 0 ∨ w.toNat % 256 < 1 ∨ 6 < w.toNat % 256) := ⟨on [] none 0, 0x100, by decide⟩
theorem witness_CommandIssue_commands :
    ∃ s : State, s.err = 0 ∧ ∀ w ∈ [1#32, 2#32, 3#32, 4#32, 5#32, 6#32],
      w.toNat / 256 = 0 ∧ 1 ≤ w.toNat % 256 ∧ w.toNat % 256 ≤ 6 := ⟨on [] none 0, rfl, by simp⟩
theorem witness_StepRunsDecodedCommand :
    ∃ (s : State) (w : Word) (rest : List HostStep) (i : Instr),
      s.host.pending = .regWrite 0 w :: rest ∧ decode w = .command i :=
  ⟨issuing (.regWrite 0 1) (on [] none 0), 1, [], .sigdet, by decide⟩
theorem witness_StepPerformsOldest :
    ∃ (s : State) (h : HostStep) (rest : List HostStep), s.host.pending = h :: rest :=
  ⟨issuing .reset (on [] none 0), .reset, [], by decide⟩
theorem witness_StepPerformsOldest_idle : ∃ s : State, s.host.pending = [] := ⟨on [] none 0, by decide⟩
theorem witness_wellFormed_cap :
    ∃ p : Params, p.wellFormed = true ∧ p.dbufCap = Config.lenMax :=
  ⟨{ input := [], outLimit := none, dbufCap := 0x7FFFFFFF }, by decide⟩
theorem witness_StickyError_clauses :
    ∃ (s : State) (t : State) (off : Word), s.err ≠ 0 ∧ perform (.regWrite 2 5) s = .next t ∧
      off.toNat < s.par.dbufCap := ⟨{ on [] none 1 with err := 7#4 }, _, 0, by decide, rfl, by decide⟩

/-- `oneByte` meets the invariant and the host's duty. -/
theorem oneByte_inv (p : List HostStep) : State.Inv { oneByte with host := { oneByte.host with pending := p } } :=
  have h : oneByte.Inv :=
    ⟨by decide, by decide, by decide, by decide, (fun l h => by cases h; decide), by decide, by decide⟩
  ⟨h.params, h.memory, h.cellsInside, h.cursor, h.output, h.errLegal, h.recordDefined⟩

theorem witness_StepKeepsInvariant :
    ∃ s t : State, s.Inv ∧ step s = .next t ∧ s.host.pending ≠ [] :=
  ⟨_, _, oneByte_inv [.regWrite 0 6], rfl, by decide⟩
theorem witness_StepKeepsParameters : ∃ s t : State, step s = .next t ∧ s.host.pending ≠ [] :=
  ⟨issuing (.bufWrite 0 1) (on sig (some 1) 1), _, rfl, by decide⟩
theorem witness_StreamsMoveForwardOnly : ∃ s t : State, step s = .next t ∧ s.ipos < t.ipos :=
  ⟨issuing (.regWrite 0 1) (on sig none 0), _, rfl, by decide⟩
theorem witness_LaunchMeetsInvariant : ∃ p : Params, p.wellFormed = true ∧ p.dbufCap = 0 :=
  ⟨{ input := [], outLimit := some 0, dbufCap := 0 }, by decide⟩
theorem witness_EveryCommandAnswers : ∃ s : State, s.Inv ∧ s.RecordCellsDefined ∧ s.err = 0 ∧ s.lengthReg = some 1 :=
  ⟨oneByte, oneByte_inv [], (fun n hn j hj => by
    cases hn
    obtain rfl : j = 0 := by simpa using hj
    decide), by decide, by decide⟩
theorem witness_CommandRefused :
    ∃ (s : State) (r : Refusal), s.Inv ∧ exec .crccalc s = .refused r ∧ exec .wrchunk s = .refused r :=
  ⟨halfDefined none, .undefCell,
    ⟨by decide, by decide, by decide, by decide, (fun l h => by cases h), by decide, by decide⟩, rfl, rfl⟩
theorem witness_CommandsWriteOnlyTheirOwn :
    ∃ s : State, s.err = 0 ∧ ∀ i : Instr, (nextWith (exec i s) fun _ => true) = true :=
  ⟨{ oneByte with par := { oneByte.par with input := iendWire } }, by decide, fun i => by cases i <;> decide +kernel⟩
theorem witness_CommandErrorLists :
    ∃ s : State, s.err = 0 ∧ ∀ i : Instr, (nextWith (exec i s) fun t => t.err != 0) = true :=
  ⟨withRecord 1 0 0 [] (on [] (some 0) 0), by decide, fun i => by cases i <;> decide +kernel⟩
theorem witness_CommandsWriteOnlyTheirOwn_rdchunk_ok :
    ∃ s t : State, exec .rdchunk s = .next t ∧ t.err = 0 := ⟨on iendWire none 0, _, rfl, by decide⟩
theorem witness_HostAccesses_reads :
    ∃ (s t u : State), perform (.regRead 2) s = .next t ∧ perform (.bufRead 0) s = .next u :=
  ⟨oneByte, _, _, rfl, rfl⟩
theorem witness_HostAccesses_writes :
    ∃ (s t u : State), perform (.regWrite 4 7) s = .next t ∧ perform (.bufWrite 0 7) s = .next u :=
  ⟨oneByte, _, _, rfl, rfl⟩
theorem witness_MatchWritten :
    ∃ s t : State, step s = .next t ∧ t.matched ≠ s.matched :=
  ⟨issuing (.regWrite 0 2) (on sig none 0), _, rfl, by decide⟩
theorem witness_EndWritten :
    ∃ s t : State, step s = .next t ∧ t.ended ≠ s.ended :=
  ⟨issuing (.regWrite 0 4) (on iendWire none 0), _, rfl, by decide⟩
theorem witness_CrcCalcWritten :
    ∃ s t : State, step s = .next t ∧ t.crcCalc ≠ s.crcCalc :=
  ⟨issuing (.regWrite 0 5) (on [] none 0), _, rfl, by decide +kernel⟩

theorem witness_SigdetResult_full :
    ∃ s : State, s.err = 0 ∧ s.ipos ≤ s.par.input.length ∧ s.ipos + 8 ≤ s.par.input.length := ⟨on sig none 0, by decide⟩
theorem witness_SigdetResult_short :
    ∃ s : State, s.err = 0 ∧ s.ipos ≤ s.par.input.length ∧ s.par.input.length < s.ipos + 8 :=
  ⟨on (sig.take 7) none 0, by decide⟩
theorem witness_SigscanResult_found :
    ∃ (s : State) (k : Nat), s.err = 0 ∧ s.ipos ≤ s.par.input.length ∧
      s.ipos + k + 8 ≤ s.par.input.length ∧ (s.par.input.drop (s.ipos + k)).take 8 = sig ∧
      ∀ k', k' < k → (s.par.input.drop (s.ipos + k')).take 8 ≠ sig :=
  ⟨on (0x89 :: sig) none 0, 1, by decide⟩
theorem witness_SigscanResult_none :
    ∃ s : State, s.err = 0 ∧ s.ipos ≤ s.par.input.length ∧
      ∀ k, s.ipos + k + 8 ≤ s.par.input.length → (s.par.input.drop (s.ipos + k)).take 8 ≠ sig :=
  ⟨on (sig.take 7) none 0, by decide, by decide, fun k hk => absurd hk (by simp [on, State.launch, sig])⟩
theorem witness_SigscanAgrees_found :
    ∃ (s : State) (k : Nat), s.err = 0 ∧ s.ipos ≤ s.par.input.length ∧
      reseekScan (s.par.input.drop s.ipos) 0 = some k := ⟨on (0x89 :: sig) none 0, 1, by decide⟩
theorem witness_SigscanAgrees_none :
    ∃ s : State, s.err = 0 ∧ s.ipos ≤ s.par.input.length ∧
      reseekScan (s.par.input.drop s.ipos) 0 = none := ⟨on (sig.take 7) none 0, by decide⟩
theorem witness_SigwrResult_room :
    ∃ s : State, s.err = 0 ∧ s.par.outLimit = some 8 ∧
      ∀ l, s.par.outLimit = some l → s.out.length + 8 ≤ l :=
  ⟨on [] (some 8) 0, by decide, rfl, fun l h => by cases h; decide⟩
theorem witness_SigwrResult_full :
    ∃ (s : State) (l : Nat), s.err = 0 ∧ s.par.outLimit = some l ∧ s.out.length ≤ l ∧
      l < s.out.length + 8 := ⟨on [] (some 7) 0, 7, by decide⟩
theorem witness_SignatureRoundTrip :
    ∃ s t u : State, s.err = 0 ∧ s.out = [] ∧ s.hasRoom 8 ∧ exec .sigwr s = .next t ∧ u.err = 0 ∧
      u.ipos = 0 ∧ u.par.input = t.out :=
  ⟨on [] (some 8) 0, _, on sig none 0, by decide, rfl, (fun l h => by cases h; decide), rfl, by decide, rfl, by decide⟩

theorem witness_RdchunkReadsRecord :
    ∃ (s : State) (l0 l1 l2 l3 t0 t1 t2 t3 c0 c1 c2 c3 : Byte) (ds tail : List Byte), s.err = 0 ∧
      s.rest = [l0, l1, l2, l3] ++ [t0, t1, t2, t3] ++ ds ++ [c0, c1, c2, c3] ++ tail ∧
      (be32 l0 l1 l2 l3).toNat = ds.length ∧ ds.length ≤ Config.lenMax ∧ ds.length = s.par.dbufCap ∧
      (isAlpha t0 && isAlpha t1 && isAlpha t2 && isAlpha t3) = true :=
  ⟨on [0, 0, 0, 1, 0x41, 0x5A, 0x61, 0x7A, 0x99, 1, 2, 3, 4, 5] none 1, 0, 0, 0, 1, 0x41, 0x5A, 0x61, 0x7A,
    1, 2, 3, 4, [0x99], [5], by decide⟩
theorem witness_RdchunkTruncatedLength : ∃ s : State, s.err = 0 ∧ s.rest.length < 4 := ⟨on [0, 0, 0] none 0, by decide⟩
theorem witness_RdchunkLengthOverflow :
    ∃ (s : State) (l0 l1 l2 l3 : Byte) (tail : List Byte), s.err = 0 ∧
      s.rest = [l0, l1, l2, l3] ++ tail ∧ Config.lenMax < (be32 l0 l1 l2 l3).toNat :=
  ⟨on [0x80, 0, 0, 0] none 0, 0x80, 0, 0, 0, [], by decide⟩
theorem witness_RdchunkTruncatedType :
    ∃ (s : State) (l0 l1 l2 l3 : Byte) (tail : List Byte), s.err = 0 ∧
      s.rest = [l0, l1, l2, l3] ++ tail ∧ (be32 l0 l1 l2 l3).toNat = Config.lenMax ∧ tail.length < 4 :=
  ⟨on [0x7F, 0xFF, 0xFF, 0xFF, 0x31, 0x45, 0x4E] none 0, 0x7F, 0xFF, 0xFF, 0xFF, [0x31, 0x45, 0x4E], by decide⟩
theorem witness_RdchunkInvalidType :
    ∃ (s : State) (l0 l1 l2 l3 t0 t1 t2 t3 : Byte) (tail : List Byte), s.err = 0 ∧
      s.rest = [l0, l1, l2, l3] ++ [t0, t1, t2, t3] ++ tail ∧
      (be32 l0 l1 l2 l3).toNat ≤ Config.lenMax ∧
      (isAlpha t0 = false ∨ isAlpha t1 = false ∨ isAlpha t2 = false ∨ isAlpha t3 = false) :=
  ⟨on [0, 0, 0, 0, 0x41, 0x42, 0x5B, 0x44] none 0, 0, 0, 0, 0, 0x41, 0x42, 0x5B, 0x44, [], by decide⟩
theorem witness_RdchunkAllocationFailure :
    ∃ (s : State) (l0 l1 l2 l3 t0 t1 t2 t3 : Byte) (tail : List Byte), s.err = 0 ∧
      s.rest = [l0, l1, l2, l3] ++ [t0, t1, t2, t3] ++ tail ∧
      (be32 l0 l1 l2 l3).toNat ≤ Config.lenMax ∧ s.par.dbufCap < (be32 l0 l1 l2 l3).toNat ∧
      (isAlpha t0 && isAlpha t1 && isAlpha t2 && isAlpha t3) = true :=
  ⟨on [0, 0, 0, 1, 0x49, 0x44, 0x41, 0x54] none 0, 0, 0, 0, 1, 0x49, 0x44, 0x41, 0x54, [], by decide⟩
theorem witness_RdchunkTruncatedData :
    ∃ (s : State) (l0 l1 l2 l3 t0 t1 t2 t3 : Byte) (tail : List Byte), s.err = 0 ∧
      s.rest = [l0, l1, l2, l3] ++ [t0, t1, t2, t3] ++ tail ∧
      (be32 l0 l1 l2 l3).toNat ≤ Config.lenMax ∧ (be32 l0 l1 l2 l3).toNat ≤ s.par.dbufCap ∧
      (isAlpha t0 && isAlpha t1 && isAlpha t2 && isAlpha t3) = true ∧
      tail.length < (be32 l0 l1 l2 l3).toNat :=
  ⟨on [0, 0, 0, 2, 0x49, 0x44, 0x41, 0x54, 1] none 2, 0, 0, 0, 2, 0x49, 0x44, 0x41, 0x54, [1], by decide⟩
theorem witness_RdchunkTruncatedCrc :
    ∃ (s : State) (l0 l1 l2 l3 t0 t1 t2 t3 : Byte) (ds tail : List Byte), s.err = 0 ∧
      s.rest = [l0, l1, l2, l3] ++ [t0, t1, t2, t3] ++ ds ++ tail ∧
      (be32 l0 l1 l2 l3).toNat = ds.length ∧ ds.length ≤ Config.lenMax ∧ ds.length ≤ s.par.dbufCap ∧
      (isAlpha t0 && isAlpha t1 && isAlpha t2 && isAlpha t3) = true ∧ tail.length < 4 :=
  ⟨on [0, 0, 0, 1, 0x49, 0x44, 0x41, 0x54, 9, 1, 2, 3] none 1, 0, 0, 0, 1, 0x49, 0x44, 0x41, 0x54, [9], [1, 2, 3],
    by decide⟩
theorem witness_FailedRdchunk :
    ∃ s t : State, s.err = 0 ∧ exec .rdchunk s = .next t ∧ t.err ≠ 0 := ⟨on [0, 0, 0] none 1, _, by decide, rfl, by decide⟩
theorem witness_RdchunkIgnoresOldRecord :
    ∃ s u t : State, s.err = 0 ∧ u.err = 0 ∧ u.ipos = s.ipos ∧ u.par = s.par ∧
      exec .rdchunk s = .next t ∧ u.typeReg ≠ s.typeReg ∧ t.lengthReg = some 0 :=
  ⟨on iendWire none 1, withRecord 1 2 3 [4] (on iendWire none 1), _, by decide, by decide, by decide, by decide, rfl,
    by decide, by decide⟩

theorem witness_CrccalcResult_overflow :
    ∃ (s : State) (n : Word), s.err = 0 ∧ s.lengthReg = some n ∧ Config.lenMax < n.toNat :=
  ⟨withRecord 0x80000000 0 0 [] (on [] none 0x7FFFFFFF), 0x80000000, by decide⟩
theorem witness_CrccalcResult_allocation :
    ∃ (s : State) (n : Word), s.err = 0 ∧ s.lengthReg = some n ∧ n.toNat ≤ Config.lenMax ∧
      s.par.dbufCap < n.toNat := ⟨withRecord 1 0 0 [] (on [] none 0), 1, by decide⟩
theorem oneByte_cells : ∀ j, j < (1#32).toNat → oneByte.dbuf.read j = ([0x00] : List Byte)[j]? := by decide
theorem witness_CrccalcResult_ok :
    ∃ (s : State) (n t : Word) (ds : List Byte), s.err = 0 ∧ s.lengthReg = some n ∧
      n.toNat ≤ Config.lenMax ∧ n.toNat = s.par.dbufCap ∧ s.typeReg = some t ∧ ds.length = n.toNat ∧
      ∀ j, j < n.toNat → s.dbuf.read j = ds[j]? :=
  ⟨oneByte, 1, 0x49444154, [0x00], by decide, by decide, by decide, by decide, by decide, by decide, oneByte_cells⟩
theorem witness_CrccalcRefusesUndefCell :
    ∃ (s : State) (n t : Word) (j : Nat), s.err = 0 ∧ s.lengthReg = some n ∧ s.typeReg = some t ∧
      n.toNat ≤ Config.lenMax ∧ n.toNat ≤ s.par.dbufCap ∧ j < n.toNat ∧ s.dbuf.read j = none :=
  ⟨halfDefined none, 2, 0x49444154, 1, by decide⟩
theorem witness_ResignMakesCrcTrue :
    ∃ (s : State) (n t : Word) (ds : List Byte), s.err = 0 ∧ s.lengthReg = some n ∧ s.typeReg = some t ∧
      n.toNat ≤ Config.lenMax ∧ n.toNat ≤ s.par.dbufCap ∧ ds.length = n.toNat ∧
      ∀ j, j < n.toNat → s.dbuf.read j = ds[j]? :=
  ⟨oneByte, 1, 0x49444154, [0x00], by decide, by decide, by decide, by decide, by decide, by decide, oneByte_cells⟩
theorem witness_CrccalcAfterRdchunk :
    ∃ s t : State, s.err = 0 ∧ exec .rdchunk s = .next t ∧ t.err = 0 ∧ t.lengthReg = some 0 :=
  ⟨on iendWire none 0, _, by decide, rfl, by decide, by decide⟩
theorem witness_WrchunkWritesRecord_ok :
    ∃ (s : State) (n t c : Word) (ds : List Byte), s.err = 0 ∧ s.lengthReg = some n ∧
      n.toNat ≤ Config.lenMax ∧ n.toNat ≤ s.par.dbufCap ∧ s.typeReg = some t ∧ s.crcReg = some c ∧
      ds.length = n.toNat ∧ (∀ j, j < n.toNat → s.dbuf.read j = ds[j]?) ∧
      ∀ l, s.par.outLimit = some l → s.out.length + (12 + n.toNat) ≤ l :=
  ⟨oneByte, 1, 0x49444154, 0x28387DE8, [0x00], by decide, by decide, by decide, by decide, by decide, by decide,
    by decide, oneByte_cells, fun l h => by cases h; decide⟩
theorem witness_WrchunkWritesRecord_checks :
    ∃ (s u : State) (n m : Word), s.err = 0 ∧ s.lengthReg = some n ∧ Config.lenMax < n.toNat ∧
      u.err = 0 ∧ u.lengthReg = some m ∧ m.toNat ≤ Config.lenMax ∧ u.par.dbufCap < m.toNat :=
  ⟨withRecord 0x80000000 0 0 [] (on [] none 0x7FFFFFFF), withRecord 1 0 0 [] (on [] none 0), 0x80000000, 1, by decide⟩
theorem witness_WrchunkWriteFailure :
    ∃ (s : State) (n t c : Word) (ds : List Byte) (l : Nat), s.err = 0 ∧ s.lengthReg = some n ∧
      s.typeReg = some t ∧ s.crcReg = some c ∧ n.toNat ≤ Config.lenMax ∧ n.toNat ≤ s.par.dbufCap ∧
      ds.length = n.toNat ∧ (∀ j, j < n.toNat → s.dbuf.read j = ds[j]?) ∧
      s.par.outLimit = some l ∧ s.out.length ≤ l ∧ l < s.out.length + (12 + n.toNat) :=
  ⟨oneByteTight, 1, 0x49444154, 0x28387DE8, [0x00], 12, by decide, by decide, by decide, by decide, by decide,
    by decide, by decide, by decide, by decide, by decide, by decide⟩
theorem witness_WrchunkUndefCell_refused :
    ∃ (s : State) (n t c : Word) (ds : List Byte), s.err = 0 ∧ s.lengthReg = some n ∧
      s.typeReg = some t ∧ s.crcReg = some c ∧ n.toNat ≤ Config.lenMax ∧ n.toNat ≤ s.par.dbufCap ∧
      ds.length < n.toNat ∧ (∀ j, j < ds.length → s.dbuf.read j = ds[j]?) ∧
      s.dbuf.read ds.length = none ∧ s.hasRoom (8 + ds.length) :=
  ⟨halfDefined (some 9), 2, 0x49444154, 0, [0x00], by decide, by decide, by decide, by decide, by decide,
    by decide, by decide, by decide, by decide, fun l h => by cases h; decide⟩
theorem witness_WrchunkUndefCell_writeFailure :
    ∃ (s : State) (n t c : Word) (ds : List Byte) (l : Nat), s.err = 0 ∧ s.lengthReg = some n ∧
      s.typeReg = some t ∧ s.crcReg = some c ∧ n.toNat ≤ Config.lenMax ∧ n.toNat ≤ s.par.dbufCap ∧
      ds.length < n.toNat ∧ (∀ j, j < ds.length → s.dbuf.read j = ds[j]?) ∧
      s.dbuf.read ds.length = none ∧ s.par.outLimit = some l ∧ s.out.length ≤ l ∧
      l < s.out.length + (8 + ds.length) :=
  ⟨halfDefined (some 8), 2, 0x49444154, 0, [0x00], 8, by decide⟩
theorem witness_ChunkRoundTrip :
    ∃ (s u : State) (n t c : Word) (ds W tail : List Byte), s.err = 0 ∧ s.lengthReg = some n ∧
      s.typeReg = some t ∧ s.crcReg = some c ∧ n.toNat ≤ Config.lenMax ∧ n.toNat ≤ s.par.dbufCap ∧
      ds.length = n.toNat ∧ (∀ j, j < n.toNat → s.dbuf.read j = ds[j]?) ∧
      (∀ b ∈ wireBytes t, isAlpha b = true) ∧ s.hasRoom (12 + n.toNat) ∧
      (nextWith (exec .wrchunk s) fun s' => decide (s'.out = s.out ++ W)) = true ∧ u.err = 0 ∧
      u.rest = W ++ tail ∧ n.toNat ≤ u.par.dbufCap :=
  ⟨oneByte, on [0, 0, 0, 1, 0x49, 0x44, 0x41, 0x54, 0, 0x28, 0x38, 0x7D, 0xE8, 0xFF] none 1, 1, 0x49444154, 0x28387DE8,
    [0x00], [0, 0, 0, 1, 0x49, 0x44, 0x41, 0x54, 0, 0x28, 0x38, 0x7D, 0xE8], [0xFF], by decide, by decide, by decide,
    by decide, by decide, by decide, by decide, oneByte_cells, by decide, (fun l h => by cases h; decide), by decide,
    by decide, by decide, by decide⟩
theorem witness_PassThrough :
    ∃ s t : State, s.err = 0 ∧ exec .rdchunk s = .next t ∧ t.err = 0 ∧ t.hasRoom (t.ipos - s.ipos) ∧ s.ipos < t.ipos :=
  ⟨on iendWire (some 12) 0, _, by decide, rfl, by decide, (fun l h => by cases h; decide), by decide⟩

theorem witness_RegisterReads_defined :
    ∃ (s : State) (w : Word), s.lengthReg = some w ∧ s.typeReg = some w ∧ s.crcReg = some w := ⟨on [] none 0, 0, by decide⟩
theorem witness_RegisterReads_undef :
    ∃ s : State, s.lengthReg = none ∧ s.typeReg = none ∧ s.crcReg = none ∧ s.par.wellFormed = true :=
  ⟨(on [] none 0).afterFailedRead 0 1#4, by decide⟩
theorem witness_BufferReads_defined :
    ∃ (s : State) (off : Word) (b : Byte), off.toNat < s.par.dbufCap ∧ s.dbuf.read off.toNat = some b :=
  ⟨oneByte, 0, 0x00, by decide⟩
theorem witness_BufferReads_undef :
    ∃ (s : State) (off : Word), off.toNat < s.par.dbufCap ∧ s.dbuf.read off.toNat = none := ⟨on [] none 1, 0, by decide⟩
theorem witness_BufferReads_beyond : ∃ (s : State) (off : Word), s.par.dbufCap ≤ off.toNat := ⟨on [] none 1, 1, by decide⟩
theorem witness_BufferWrites_inside : ∃ (s : State) (off : Word), off.toNat < s.par.dbufCap := ⟨on [] none 1, 0, by decide⟩
theorem witness_BufferWrites_beyond : ∃ (s : State) (off : Word), s.par.dbufCap ≤ off.toNat := ⟨on [] none 0, 0, by decide⟩
theorem witness_UndefinedAccesses : ∃ i : Nat, 8 ≤ i := ⟨8, by decide⟩

end Sys2Proof.Tests
end

section
/-! SUPPORT. The big-endian spelling of a word (rule R10), and the bytes and cells a record is made of. -/

namespace Sys2Proof.Machine

/-- The value of `be32` (rule R10). -/
theorem be32_toNat (b0 b1 b2 b3 : Byte) : (be32 b0 b1 b2 b3).toNat =
    b0.toNat * 2 ^ 24 + b1.toNat * 2 ^ 16 + b2.toNat * 2 ^ 8 + b3.toNat := by
  have append_toNat {w : Nat} (x : BitVec w) (b : Byte) :
      (x ++ b).toNat = x.toNat * 2 ^ 8 + b.toNat := by
    rw [BitVec.toNat_append, ← Nat.shiftLeft_add_eq_or_of_lt b.isLt, Nat.shiftLeft_eq]
  simp only [be32, append_toNat]
  omega

/-- The value of `byte_k` (rule R10). -/
theorem byteOf_toNat (k : Nat) (v : Word) :
    (byteOf k v).toNat = v.toNat / 2 ^ (24 - 8 * k) % 2 ^ 8 := by
  simp [byteOf, Nat.shiftRight_eq_div_pow]

/-- A word is the `be32` of its four bytes (rule R10). -/
theorem be32_byteOf (v : Word) : be32 (byteOf 0 v) (byteOf 1 v) (byteOf 2 v) (byteOf 3 v) = v := by
  apply BitVec.eq_of_toNat_eq
  have := v.isLt
  simp only [be32_toNat, byteOf_toNat]
  omega

/-- Four bytes of the wire are the spelling of their `be32` (rule R10, rule R83). -/
@[simp] theorem wireBytes_be32 (b0 b1 b2 b3 : Byte) : wireBytes (be32 b0 b1 b2 b3) = [b0, b1, b2, b3] := by
  have h0 := b0.isLt
  have h1 := b1.isLt
  have h2 := b2.isLt
  have h3 := b3.isLt
  have byteOf_eq {k : Nat} {b : Byte}
      (h : (be32 b0 b1 b2 b3).toNat / 2 ^ (24 - 8 * k) % 2 ^ 8 = b.toNat) :
      byteOf k (be32 b0 b1 b2 b3) = b := BitVec.eq_of_toNat_eq ((byteOf_toNat k _).trans h)
  rw [be32_toNat] at byteOf_eq
  rw [wireBytes, byteOf_eq (b := b0), byteOf_eq (b := b1), byteOf_eq (b := b2), byteOf_eq (b := b3)]
  all_goals omega

/-- One undefined cell leaves no list of bytes (rule R16). -/
theorem allDefined_eq_none {l : List (Option Byte)} (h : none ∈ l) : allDefined l = none := by
  cases hl : allDefined l with
  | none => rfl
  | some ds => rw [allDefined_eq_some.mp hl] at h; simp at h

/-- An `undef` cell below `n` is among cells 0 to `n - 1`. -/
theorem none_mem_cells {n j : Nat} {m : Memory} (hj : j < n) (h : m.read j = none) :
    none ∈ cells n m := List.mem_map.mpr ⟨j, List.mem_range.mpr hj, h⟩

/-- Cells 0 to `n - 1`, cut at the first that is `undef`. -/
theorem cells_eq_map_append_none {n : Nat} {m : Memory} {ds : List Byte} (hn : ds.length < n)
    (h : ∀ j, j < ds.length → m.read j = ds[j]?) (hu : m.read ds.length = none) :
    ∃ more, cells n m = ds.map some ++ none :: more := by
  have hfront : (cells n m).take ds.length = ds.map some := by
    rw [← cells_eq_map rfl h]
    simp [cells, ← List.map_take, List.take_range, Nat.min_eq_left hn.le]
  have hback : (cells n m).drop ds.length = none :: (cells n m).drop (ds.length + 1) := by
    rw [List.drop_eq_getElem_cons (by simpa using hn)]
    simp [cells, hu]
  exact ⟨_, by rw [← hfront, ← hback, List.take_append_drop]⟩

end Sys2Proof.Machine
end

section
/-! SUPPORT. Emission of a sequence that is cut into two, the bodies of CRCCALC and WRCHUNK once their checks have
passed, and what a host read gives. -/

namespace Sys2Proof.Machine

/-! ## Emission -/

/-- Emission goes on behind a part that the sink took whole, and stops in a part it did not (rule R13, rule R164). -/
theorem emitCells_append {l r : List (Option Byte)} {s t : State} (h0 : s.err = 0)
    (h : emitCells l s = .next t) :
    emitCells (l ++ r) s = if t.err = 0 then emitCells r t else .next t := by
  induction l generalizing s with
  | nil => cases h; simp [h0]
  | cons c rest ih =>
    cases c with
    | none => cases h
    | some b =>
      by_cases hacc : s.par.accepts s.out.length = true
      · simp only [List.cons_append, emitCells, State.outByte, if_pos hacc] at h ⊢
        exact ih (by simpa using h0) h
      · simp only [List.cons_append, emitCells, State.outByte, if_neg hacc] at h ⊢
        cases h
        rw [if_neg (by simp [ErrorName.code])]

/-- Emission is refused at an `undef` cell that the sink's room reaches (rule R161; log entry 5). -/
theorem emitCells_undef_refused {bs : List Byte} {more : List (Option Byte)} {s : State} (h0 : s.err = 0)
    (hroom : s.hasRoom bs.length) : emitCells (bs.map some ++ none :: more) s = .refused .undefCell := by
  rw [emitCells_append h0 (emitCells_room hroom), if_pos (by simpa using h0), emitCells]

/-- A sink that stops among defined bytes wins over whatever stands behind them (rule R164; log entry 5). -/
theorem emitCells_append_full {bs : List Byte} {more : List (Option Byte)} {s : State} {l : Nat}
    (h0 : s.err = 0) (hl : s.par.outLimit = some l) (hle : s.out.length ≤ l)
    (hlt : l < s.out.length + bs.length) :
    emitCells (bs.map some ++ more) s =
      .next ((s.setOut (s.out ++ bs.take (l - s.out.length))).raise .writeFailure) := by
  rw [emitCells_append h0 (emitCells_full hl hle hlt), if_neg (by simp [ErrorName.code])]

/-- The sink has room for a byte exactly when it accepts one (rule R12, rule R37). -/
theorem Params.accepts_iff (s : State) : s.par.accepts s.out.length = true ↔ s.hasRoom 1 := by
  unfold Params.accepts State.hasRoom
  cases s.par.outLimit <;> simp

/-! ## The bodies of CRCCALC and WRCHUNK once their checks have passed -/

theorem calcCrc_eq_hashRecord {s : State} {n t : Word} (hn : s.lengthReg = some n)
    (ht : s.typeReg = some t) (hmax : n.toNat ≤ Config.lenMax) (hcap : n.toNat ≤ s.par.dbufCap) :
    calcCrc s = hashRecord t (cells n.toNat s.dbuf) s := by
  simp [calcCrc, hn, ht, lengthCheck_none.mpr ⟨hmax, hcap⟩]

theorem writeRecord_eq_emitCells {s : State} {n t c : Word} (hn : s.lengthReg = some n)
    (ht : s.typeReg = some t) (hc : s.crcReg = some c) (hmax : n.toNat ≤ Config.lenMax)
    (hcap : n.toNat ≤ s.par.dbufCap) :
    writeRecord s = emitCells (recordCells n t c (cells n.toNat s.dbuf)) s := by
  simp [writeRecord, hn, ht, hc, lengthCheck_none.mpr ⟨hmax, hcap⟩]

/-! ## Host reads -/

/-- The value of the STATUS word: ERR below MATCH below END (rule R28). -/
theorem State.statusWord_toNat (s : State) : s.statusWord.toNat =
    (if s.ended then 32 else 0) + (if s.matched then 16 else 0) + s.err.toNat := by
  unfold State.statusWord
  generalize s.ended = a, s.matched = b, s.err = e
  revert a b e
  decide

/-- A read of a record register that holds a word gives that word (rule R176). -/
theorem State.answerRegister_some {v : Option Word} {w : Word} (h : v = some w) (s : State) :
    s.answerRegister v = s.answer (.word w) := by rw [h]; rfl

/-- A read of an `undef` record register draws a free word (rule R16, rule R176; log entry 3). -/
theorem State.answerRegister_none {v : Option Word} (h : v = none) (s : State) :
    s.answerRegister v = s.answerFree (fun n => .word (Config.freeWord n)) := by rw [h]; rfl

/-- A read of a DBUF cell that holds a byte (rule R178). -/
theorem bufRead_of_read_eq_some {s : State} {off : Word} {b : Byte} (hin : off.toNat < s.par.dbufCap)
    (hb : s.dbuf.read off.toNat = some b) : bufRead off s = .next (s.answer (.byte b)) := by
  rw [bufRead, if_pos hin, hb]

/-- A read of an `undef` DBUF cell draws a free byte (rule R16, rule R178; log entry 3). -/
theorem bufRead_of_read_eq_none {s : State} {off : Word} (hin : off.toNat < s.par.dbufCap)
    (hu : s.dbuf.read off.toNat = none) :
    bufRead off s = .next (s.answerFree (fun n => .byte (Config.freeByte n))) := by
  rw [bufRead, if_pos hin, hu]

end Sys2Proof.Machine
end

section
/-! SUPPORT. What a step can do, said once per command and once per host step. -/

namespace Sys2Proof.Machine

/-! ## What each command can do -/

/-- What SIGDET and SIGSCAN can do: consume bytes, then give MATCH an answer or raise `SignatureNotFound`
(rule R101, rule R106). -/
inductive SearchEffect (s : State) : State → Prop
  | answered (k : Nat) (b : Bool) (hk : k ≤ s.rest.length) :
      SearchEffect s ((s.setIpos (s.ipos + k)).setMatched b)
  | notFound (k : Nat) (hk : k ≤ s.rest.length) :
      SearchEffect s (((s.setIpos (s.ipos + k)).setMatched false).raise .signatureNotFound)

/-- What an emission can do: append bytes the sink has room for, and raise `WriteFailure` where it refuses the next
(rule R111, rule R162, rule R164). -/
inductive EmitEffect (s : State) : State → Prop
  | whole (bs : List Byte) (hroom : s.hasRoom 0 → s.hasRoom bs.length) :
      EmitEffect s (s.setOut (s.out ++ bs))
  | cut (bs : List Byte) (hroom : s.hasRoom 0 → s.hasRoom bs.length) :
      EmitEffect s ((s.setOut (s.out ++ bs)).raise .writeFailure)

/-- The errors RDCHUNK can raise (rule R132). -/
def readErrors : List ErrorName :=
  [.truncatedHeader, .lengthOverflow, .invalidType, .truncatedData, .truncatedCrc, .allocationFailure]

/-- What a failed RDCHUNK does: some bytes are consumed, the record is lost and an error is raised (rule R130). -/
def FailedRead (s t : State) : Prop :=
  ∃ k e, k ≤ s.rest.length ∧ e ∈ readErrors ∧ t = (s.setIpos (s.ipos + k)).failRead e

/-- What RDCHUNK can do (rule R121 to rule R130). -/
inductive ReadEffect (s : State) : State → Prop
  | failed {t : State} (h : FailedRead s t) : ReadEffect s t
  | record (len typ crc : Word) (ds tail : List Byte)
      (hrest : s.rest = wireBytes len ++ wireBytes typ ++ ds ++ wireBytes crc ++ tail)
      (hlen : ds.length = len.toNat) (hmax : len.toNat ≤ Config.lenMax)
      (hcap : len.toNat ≤ s.par.dbufCap) :
      ReadEffect s (((s.setIpos (s.ipos + (12 + ds.length))).setDbuf
        (s.dbuf.writeRange 0 ds)).finishRead len typ crc)

/-- What CRCCALC can do: raise the error of a length check, or write its register (rule R147, rule R148). -/
inductive CalcEffect (s : State) : State → Prop
  | badLength (n : Word) (e : ErrorName) (hn : s.lengthReg = some n) (he : lengthCheck s.par n = some e) :
      CalcEffect s (s.raise e)
  | hashed (w : Word) : CalcEffect s (s.setCrcCalc w)

/-- What WRCHUNK can do: raise the error of a length check, or emit (rule R162, rule R163). -/
inductive WriteEffect (s : State) : State → Prop
  | badLength (n : Word) (e : ErrorName) (hn : s.lengthReg = some n) (he : lengthCheck s.par n = some e) :
      WriteEffect s (s.raise e)
  | emitted {t : State} (h : EmitEffect s t) : WriteEffect s t

/-- What a command can do: nothing under a sticky error (rule R194), otherwise its own effect. -/
inductive CommandEffect (s : State) : Instr → State → Prop
  | ignored (i : Instr) (h0 : s.err ≠ 0) : CommandEffect s i s
  | sigdet {t : State} (h0 : s.err = 0) (h : SearchEffect s t) : CommandEffect s .sigdet t
  | sigscan {t : State} (h0 : s.err = 0) (h : SearchEffect s t) : CommandEffect s .sigscan t
  | sigwr {t : State} (h0 : s.err = 0) (h : EmitEffect s t) : CommandEffect s .sigwr t
  | rdchunk {t : State} (h0 : s.err = 0) (h : ReadEffect s t) : CommandEffect s .rdchunk t
  | crccalc {t : State} (h0 : s.err = 0) (h : CalcEffect s t) : CommandEffect s .crccalc t
  | wrchunk {t : State} (h0 : s.err = 0) (h : WriteEffect s t) : CommandEffect s .wrchunk t

/-- What a host step can do (rule R78, rule R176 to rule R179, rule R220). -/
inductive HostEffect (s : State) : HostStep → State → Prop
  | command {w : Word} {i : Instr} {t : State} (hw : decode w = .command i) (h : CommandEffect s i t) :
      HostEffect s (.regWrite 0 w) t
  | reserved {w : Word} {why : Reserved} (hw : decode w = .reserved why) (h0 : s.err = 0) :
      HostEffect s (.regWrite 0 w) (s.raise .illegalCommand)
  | reservedIgnored {w : Word} {why : Reserved} (hw : decode w = .reserved why) (h0 : s.err ≠ 0) :
      HostEffect s (.regWrite 0 w) s
  | writeIgnored {i : Nat} (v : Word) (hi : i ∈ [1, 5, 6, 7]) : HostEffect s (.regWrite i v) s
  | writeLength (v : Word) : HostEffect s (.regWrite 2 v) (s.setLength (some v))
  | writeType (v : Word) : HostEffect s (.regWrite 3 v) (s.setType (some v))
  | writeCrc (v : Word) : HostEffect s (.regWrite 4 v) (s.setCrc (some v))
  | readRegister (i : Nat) (p : HostPort) (hp : p.pending = s.host.pending) :
      HostEffect s (.regRead i) (s.setHost p)
  | readBuffer (off : Word) (p : HostPort) (hp : p.pending = s.host.pending) :
      HostEffect s (.bufRead off) (s.setHost p)
  | writeBuffer (off : Word) (b : Byte) (hin : off.toNat < s.par.dbufCap) :
      HostEffect s (.bufWrite off b) (s.setDbuf (s.dbuf.write off.toNat b))
  | writeBeyond (off : Word) (b : Byte) (hout : s.par.dbufCap ≤ off.toNat) :
      HostEffect s (.bufWrite off b) s
  | reset : HostEffect s .reset s.resetEvent

/-! ## SIGDET and SIGSCAN -/

/-- A search that starts `n` bytes further is one that has consumed them too. -/
theorem SearchEffect.after {s t : State} {n : Nat} (hn : n ≤ s.rest.length)
    (h : SearchEffect (s.setIpos (s.ipos + n)) t) : SearchEffect s t := by
  cases h with
  | answered k b hk =>
    rw [State.rest_setIpos_add, List.length_drop] at hk
    rw [State.setIpos_setIpos, State.setIpos_ipos, Nat.add_assoc]
    exact .answered (n + k) b (by omega)
  | notFound k hk =>
    rw [State.rest_setIpos_add, List.length_drop] at hk
    rw [State.setIpos_setIpos, State.setIpos_ipos, Nat.add_assoc]
    exact .notFound (n + k) (by omega)

theorem detectIn_effect (s : State) : SearchEffect s (detectIn (s.inBytes 8).1 (s.inBytes 8).2) := by
  rw [State.inBytes_eq, detectIn]
  split_ifs
  · exact .notFound _ (Nat.min_le_right ..)
  · exact .answered _ _ (Nat.min_le_right ..)

theorem scanLoop_effect (n : Nat) (win : List Byte) (s : State) : SearchEffect s (scanLoop n win s) := by
  induction n generalizing win s with
  | zero => exact .notFound 0 (Nat.zero_le _)
  | succ n ih =>
    cases hr : s.rest with
    | nil =>
      rw [scanLoop, State.inByte_nil hr]
      exact .notFound 0 (Nat.zero_le _)
    | cons b bs =>
      have h1 : 1 ≤ s.rest.length := by simp [hr]
      simp only [scanLoop, State.inByte_cons hr]
      split_ifs
      · exact .answered 1 true h1
      · exact (ih ..).after h1

/-! ## Emission -/

/-- An emission that follows one byte the sink took. -/
theorem EmitEffect.after_byte {s t : State} {b : Byte} (hb : s.hasRoom 1)
    (h : EmitEffect (s.setOut (s.out ++ [b])) t) : EmitEffect s t := by
  have room {bs : List Byte} (hroom : (s.setOut (s.out ++ [b])).hasRoom 0 →
      (s.setOut (s.out ++ [b])).hasRoom bs.length) : s.hasRoom (b :: bs).length := by
    intro l hl
    have := hroom (fun l hl => by simpa using hb l hl) l hl
    simp only [State.setOut_out, List.length_append, List.length_cons, List.length_nil] at this ⊢
    omega
  cases h with
  | whole bs hroom => simpa using EmitEffect.whole (b :: bs) fun _ => room hroom
  | cut bs hroom => simpa using EmitEffect.cut (b :: bs) fun _ => room hroom

theorem emitCells_effect {l : List (Option Byte)} {s t : State} (h : emitCells l s = .next t) :
    EmitEffect s t := by
  induction l generalizing s with
  | nil =>
    cases h
    simpa using EmitEffect.whole (s := t) [] id
  | cons c rest ih =>
    cases c with
    | none => cases h
    | some b =>
      by_cases hacc : s.par.accepts s.out.length = true
      · simp only [emitCells, State.outByte, if_pos hacc] at h
        exact (ih h).after_byte ((Params.accepts_iff s).mp hacc)
      · simp only [emitCells, State.outByte, if_neg hacc] at h
        cases h
        simpa using EmitEffect.cut (s := s) [] id

/-! ## RDCHUNK, from its last step to its first -/

/-- A read that fails from `n` bytes further on has consumed them too. -/
theorem FailedRead.after {s t : State} {n : Nat} (hn : n ≤ s.rest.length)
    (h : FailedRead (s.setIpos (s.ipos + n)) t) : FailedRead s t := by
  obtain ⟨k, e, hk, he, rfl⟩ := h
  rw [State.rest_setIpos_add, List.length_drop] at hk
  exact ⟨n + k, e, by omega, he, by rw [State.setIpos_setIpos, State.setIpos_ipos, Nat.add_assoc]⟩

/-- A read of a four-byte field fails, having consumed what there was, or goes on behind the field (rule R83). -/
theorem readField_cases {s : State} {short : State → Result}
    {full : Byte → Byte → Byte → Byte → State → Result} {r : Result} (h : readField s short full = r) :
    r = short (s.setIpos (s.ipos + s.rest.length)) ∨
    ∃ b0 b1 b2 b3, 4 ≤ s.rest.length ∧
      s.rest = wireBytes (be32 b0 b1 b2 b3) ++ (s.setIpos (s.ipos + 4)).rest ∧
      r = full b0 b1 b2 b3 (s.setIpos (s.ipos + 4)) := by
  obtain ⟨b0, b1, b2, b3, tail, hr⟩ | hr := s.rest_four
  · exact .inr ⟨b0, b1, b2, b3, by simp [hr], by simp [State.rest_setIpos_add, hr],
      h.symm.trans (readField_full hr short full)⟩
  · exact .inl (h.symm.trans (readField_short hr short full))

theorem readCrc_effect (len typ : Word) (s : State) :
    ∃ t, readCrc len typ s = .next t ∧ (FailedRead s t ∨
      ∃ crc tail, s.rest = wireBytes crc ++ tail ∧
        t = (s.setIpos (s.ipos + 4)).finishRead len typ crc) := by
  generalize hr : readCrc len typ s = r
  obtain rfl | ⟨c0, c1, c2, c3, -, hrest, rfl⟩ := readField_cases hr
  · exact ⟨_, rfl, .inl ⟨_, _, le_rfl, by decide, rfl⟩⟩
  · exact ⟨_, rfl, .inr ⟨_, _, hrest, rfl⟩⟩

theorem readData_effect (len typ : Word) (s : State) :
    ∃ t, readData len typ s = .next t ∧ (FailedRead s t ∨
      ∃ ds crc tail, s.rest = ds ++ (wireBytes crc ++ tail) ∧ ds.length = len.toNat ∧
        len.toNat ≤ s.par.dbufCap ∧
        t = ((s.setIpos (s.ipos + ds.length + 4)).setDbuf (s.dbuf.writeRange 0 ds)).finishRead
          len typ crc) := by
  simp only [readData, State.inBytes_eq]
  split_ifs with hcap hshort
  · exact ⟨_, rfl, .inl ⟨0, _, Nat.zero_le _, by decide, rfl⟩⟩
  · exact ⟨_, rfl, .inl ⟨_, _, Nat.min_le_right .., by decide, rfl⟩⟩
  · rw [List.length_take] at hshort
    rw [Nat.min_eq_left (by omega)]
    have hds : (s.rest.take len.toNat).length = len.toNat := by rw [List.length_take]; omega
    obtain ⟨t, ht, hfail | ⟨crc, tail, hrest, rfl⟩⟩ := readCrc_effect len typ
      ((s.setIpos (s.ipos + len.toNat)).setDbuf (s.dbuf.writeRange 0 (s.rest.take len.toNat)))
    · exact ⟨t, ht, .inl (FailedRead.after (n := len.toNat) (by omega) hfail)⟩
    · refine ⟨_, ht, .inr ⟨s.rest.take len.toNat, crc, tail, ?_, hds, by omega, by rw [hds]; rfl⟩⟩
      rw [← hrest]
      exact (congrArg _ (s.rest_setIpos_add _)).trans (List.take_append_drop ..) |>.symm

theorem readType_effect (len : Word) (s : State) :
    ∃ t, readType len s = .next t ∧ (FailedRead s t ∨
      ∃ typ ds crc tail, s.rest = wireBytes typ ++ (ds ++ (wireBytes crc ++ tail)) ∧
        ds.length = len.toNat ∧ len.toNat ≤ s.par.dbufCap ∧
        t = ((s.setIpos (s.ipos + 4 + ds.length + 4)).setDbuf
          (s.dbuf.writeRange 0 ds)).finishRead len typ crc) := by
  generalize hr : readType len s = r
  obtain rfl | ⟨t0, t1, t2, t3, hfour, hfield, rfl⟩ := readField_cases hr
  · exact ⟨_, rfl, .inl ⟨_, _, le_rfl, by decide, rfl⟩⟩
  · split_ifs
    · obtain ⟨t, ht, hfail | ⟨ds, crc, tail, hrest, hlen, hcap, rfl⟩⟩ :=
        readData_effect len (be32 t0 t1 t2 t3) (s.setIpos (s.ipos + 4))
      · exact ⟨t, ht, .inl (hfail.after hfour)⟩
      · exact ⟨_, ht, .inr ⟨_, ds, crc, tail, hrest ▸ hfield, hlen, hcap, rfl⟩⟩
    · exact ⟨_, rfl, .inl ⟨4, _, hfour, by decide, rfl⟩⟩

theorem readLength_effect (s : State) : ∃ t, readLength s = .next t ∧ ReadEffect s t := by
  generalize hr : readLength s = r
  obtain rfl | ⟨l0, l1, l2, l3, hfour, hfield, rfl⟩ := readField_cases hr
  · exact ⟨_, rfl, .failed ⟨_, _, le_rfl, by decide, rfl⟩⟩
  · split_ifs with hmax
    · exact ⟨_, rfl, .failed ⟨4, _, hfour, by decide, rfl⟩⟩
    · obtain ⟨t, ht, hfail | ⟨typ, ds, crc, tail, hrest, hlen, hcap, rfl⟩⟩ :=
        readType_effect (be32 l0 l1 l2 l3) (s.setIpos (s.ipos + 4))
      · exact ⟨t, ht, .failed (hfail.after hfour)⟩
      · have hipos : s.ipos + 4 + 4 + ds.length + 4 = s.ipos + (12 + ds.length) := by omega
        refine ⟨_, ht, ?_⟩
        simp only [State.setIpos_ipos, State.setIpos_setIpos, State.setIpos_dbuf, hipos]
        exact .record _ typ crc ds tail (by simp [hfield, hrest]) hlen (by omega) hcap

/-! ## CRCCALC and WRCHUNK -/

theorem calcCrc_effect {s t : State} (h : calcCrc s = .next t) : CalcEffect s t := by
  unfold calcCrc at h
  split at h
  · cases h
  · next n hn =>
    split at h
    · next e he => cases h; exact .badLength n e hn he
    · split at h
      · cases h
      · unfold hashRecord at h
        split at h
        · cases h
        · cases h; exact .hashed _

theorem writeRecord_effect {s t : State} (h : writeRecord s = .next t) : WriteEffect s t := by
  unfold writeRecord at h
  split at h
  · cases h
  · next n hn =>
    split at h
    · next e he => cases h; exact .badLength n e hn he
    · split at h
      · exact .emitted (emitCells_effect h)
      · cases h

/-! ## Commands, host steps and steps -/

/-- Under a sticky error every command is ignored (rule R194). -/
theorem exec_of_err_ne_zero (i : Instr) {s : State} (h0 : s.err ≠ 0) : exec i s = .next s := by
  cases i <;> exact if_neg h0

theorem exec_effect {i : Instr} {s t : State} (h : exec i s = .next t) : CommandEffect s i t := by
  by_cases h0 : s.err = 0
  case neg =>
    cases (exec_of_err_ne_zero i h0).symm.trans h
    exact .ignored i h0
  cases i with
  | sigdet =>
    rw [exec, execSigdet, unlessSticky_clear h0] at h
    cases h
    exact .sigdet h0 (detectIn_effect s)
  | sigscan =>
    rw [exec, execSigscan, unlessSticky_clear h0] at h
    cases h
    exact .sigscan h0 (scanLoop_effect ..)
  | sigwr =>
    rw [exec, execSigwr, unlessSticky_clear h0] at h
    exact .sigwr h0 (emitCells_effect h)
  | rdchunk =>
    rw [exec, execRdchunk, unlessSticky_clear h0] at h
    obtain ⟨u, hu, heff⟩ := readLength_effect s
    cases hu.symm.trans h
    exact .rdchunk h0 heff
  | crccalc =>
    rw [exec, execCrccalc, unlessSticky_clear h0] at h
    exact .crccalc h0 (calcCrc_effect h)
  | wrchunk =>
    rw [exec, execWrchunk, unlessSticky_clear h0] at h
    exact .wrchunk h0 (writeRecord_effect h)

theorem issue_effect {w : Word} {s t : State} (h : issue w s = .next t) :
    HostEffect s (.regWrite 0 w) t := by
  unfold issue at h
  split at h
  · next i hw => exact .command hw (exec_effect h)
  · next why hw =>
    obtain ⟨h0, h⟩ | ⟨h0, h⟩ := unlessSticky_cases h
    · cases h; exact .reserved hw h0
    · cases h; exact .reservedIgnored hw h0

theorem regRead_effect {i : Nat} {s t : State} (h : regRead i s = .next t) :
    HostEffect s (.regRead i) t := by
  unfold regRead at h
  split at h
  case h_9 => cases h
  case h_3 | h_4 | h_5 =>
    cases h
    obtain ⟨p, hp, hpending⟩ := State.answerRegister_frame _ s
    exact hp ▸ .readRegister _ p hpending
  all_goals cases h; exact .readRegister _ _ rfl

theorem regWrite_effect {i : Nat} {v : Word} {s t : State} (h : regWrite i v s = .next t) :
    HostEffect s (.regWrite i v) t := by
  unfold regWrite at h
  split at h
  · exact issue_effect h
  case h_9 => cases h
  all_goals cases h
  · exact .writeIgnored v (by decide)
  · exact .writeLength v
  · exact .writeType v
  · exact .writeCrc v
  all_goals exact .writeIgnored v (by decide)

theorem bufRead_effect {off : Word} {s t : State} (h : bufRead off s = .next t) :
    HostEffect s (.bufRead off) t := by
  unfold bufRead at h
  split_ifs at h
  · split at h <;> cases h <;> exact .readBuffer off _ rfl
  · cases h; exact .readBuffer off _ rfl

theorem bufWrite_effect {off : Word} {b : Byte} {s t : State} (h : bufWrite off b s = .next t) :
    HostEffect s (.bufWrite off b) t := by
  unfold bufWrite at h
  split_ifs at h with hin <;> cases h
  · exact .writeBuffer off b hin
  · exact .writeBeyond off b (by omega)

theorem perform_effect {h : HostStep} {s t : State} (hp : perform h s = .next t) : HostEffect s h t := by
  cases h with
  | regRead i => exact regRead_effect hp
  | regWrite i v => exact regWrite_effect hp
  | bufRead off => exact bufRead_effect hp
  | bufWrite off b => exact bufWrite_effect hp
  | reset => cases hp; exact .reset
  | regNarrow | bufWide | secondHost => cases hp

/-- Everything a step can do: idle, or the effect of the oldest pending host step (rule R62, rule R220). -/
theorem step_effect {s t : State} (h : step s = .next t) : (s.host.pending = [] ∧ t = s) ∨
    ∃ hs rest, s.host.pending = hs :: rest ∧
      HostEffect (s.setHost { s.host with pending := rest }) hs t := by
  unfold step performNext at h
  split at h
  · next hp => cases h; exact .inl ⟨hp, rfl⟩
  · next hs rest hp => exact .inr ⟨hs, rest, hp, perform_effect h⟩

end Sys2Proof.Machine
end

section
/-! SUPPORT. Every update of the state keeps the invariant, so every effect does, and none changes the parameters. -/

namespace Sys2Proof.Machine

variable {s t : State}

/-! ## Updates keep the invariant -/

theorem State.Inv.setLength (hi : s.Inv) (v : Word) : (s.setLength (some v)).Inv :=
  { hi with recordDefined := fun h0 => ⟨rfl, (hi.recordDefined h0).2⟩ }

theorem State.Inv.setType (hi : s.Inv) (v : Word) : (s.setType (some v)).Inv :=
  { hi with recordDefined := fun h0 => ⟨(hi.recordDefined h0).1, rfl, (hi.recordDefined h0).2.2⟩ }

theorem State.Inv.setCrc (hi : s.Inv) (v : Word) : (s.setCrc (some v)).Inv :=
  { hi with recordDefined := fun h0 => ⟨(hi.recordDefined h0).1, (hi.recordDefined h0).2.1, rfl⟩ }

theorem State.Inv.setCrcCalc (hi : s.Inv) (v : Word) : (s.setCrcCalc v).Inv := { hi with }

theorem State.Inv.setMatched (hi : s.Inv) (v : Bool) : (s.setMatched v).Inv := { hi with }

theorem State.Inv.setEnded (hi : s.Inv) (v : Bool) : (s.setEnded v).Inv := { hi with }

theorem State.Inv.setHost (hi : s.Inv) (p : HostPort) : (s.setHost p).Inv := { hi with }

/-- The cursor may move as far as bytes are left (rule R36). -/
theorem State.Inv.setIpos (hi : s.Inv) {k : Nat} (hk : k ≤ s.rest.length) : (s.setIpos (s.ipos + k)).Inv :=
  { hi with
    cursor := by
      have hc := hi.cursor
      rw [State.rest, List.length_drop] at hk
      simp only [State.setIpos_ipos, State.setIpos_par]
      omega }

/-- Bytes the sink has room for may be appended (rule R37). -/
theorem State.Inv.setOut (hi : s.Inv) {bs : List Byte} (hroom : s.hasRoom 0 → s.hasRoom bs.length) :
    (s.setOut (s.out ++ bs)).Inv :=
  { hi with output := fun l hl => by simpa using hroom hi.output l hl }

theorem State.Inv.write (hi : s.Inv) {off : Nat} (hin : off < s.par.dbufCap) (b : Byte) :
    (s.setDbuf (s.dbuf.write off b)).Inv :=
  { hi with
    memory := Memory.wf_write hi.memory off b
    cellsInside := fun c hc => (Memory.mem_write hc).elim (fun h => h ▸ hin) (hi.cellsInside c) }

theorem State.Inv.writeRange (hi : s.Inv) {bs : List Byte} (hin : bs.length ≤ s.par.dbufCap) :
    (s.setDbuf (s.dbuf.writeRange 0 bs)).Inv :=
  { hi with
    memory := Memory.wf_writeRange hi.memory 0 bs
    cellsInside := fun c hc => by
      obtain ⟨-, h⟩ | h := Memory.mem_writeRange hc
      · simp only [State.setDbuf_par]
        omega
      · exact hi.cellsInside c h }

/-- Every code but the one no command raises is a legal, nonzero value of ERR (rule R5, rule R29). -/
theorem ErrorName.code_legal {e : ErrorName} (he : e ≠ .invalidPaletteLength) :
    legalErr e.code = true ∧ e.code ≠ 0 := by
  cases e with
  | invalidPaletteLength => exact absurd rfl he
  | _ => decide

theorem State.Inv.raise (hi : s.Inv) {e : ErrorName} (he : e ≠ .invalidPaletteLength) : (s.raise e).Inv :=
  { hi with
    errLegal := (ErrorName.code_legal he).1
    recordDefined := fun h0 => absurd h0 (ErrorName.code_legal he).2 }

theorem State.Inv.failRead (hi : s.Inv) {e : ErrorName} (he : e ≠ .invalidPaletteLength) : (s.failRead e).Inv :=
  { hi with
    memory := Memory.wf_undef
    cellsInside := fun _ hc => absurd hc List.not_mem_nil
    errLegal := (ErrorName.code_legal he).1
    recordDefined := fun h0 => absurd h0 (ErrorName.code_legal he).2 }

theorem State.Inv.finishRead (hi : s.Inv) (len typ crc : Word) : (s.finishRead len typ crc).Inv :=
  (((hi.setLength len).setType typ).setCrc crc).setEnded _

theorem State.Inv.resetEvent (hi : s.Inv) : s.resetEvent.Inv :=
  { hi with
    memory := Memory.wf_undef
    cellsInside := fun _ hc => absurd hc List.not_mem_nil
    errLegal := rfl
    recordDefined := fun _ => ⟨rfl, rfl, rfl⟩ }

theorem State.Inv.launch {p : Params} (hp : p.wellFormed = true) : (State.launch p).Inv where
  params := hp
  memory := Memory.wf_undef
  cellsInside := fun _ hc => absurd hc List.not_mem_nil
  cursor := Nat.zero_le _
  output := fun _ _ => Nat.zero_le _
  errLegal := rfl
  recordDefined := fun _ => ⟨rfl, rfl, rfl⟩

/-! ## Effects keep the invariant -/

theorem SearchEffect.inv (h : SearchEffect s t) (hi : s.Inv) : t.Inv := by
  cases h with
  | answered k b hk => exact (hi.setIpos hk).setMatched b
  | notFound k hk => exact ((hi.setIpos hk).setMatched false).raise (by decide)

theorem EmitEffect.inv (h : EmitEffect s t) (hi : s.Inv) : t.Inv := by
  cases h with
  | whole bs hroom => exact hi.setOut hroom
  | cut bs hroom => exact (hi.setOut hroom).raise (by decide)

theorem ReadEffect.inv (h : ReadEffect s t) (hi : s.Inv) : t.Inv := by
  cases h with
  | failed h =>
    obtain ⟨k, e, hk, he, rfl⟩ := h
    exact (hi.setIpos hk).failRead (by rintro rfl; exact absurd he (by decide))
  | record len typ crc ds tail hrest hlen hmax hcap =>
    have hk : 12 + ds.length ≤ s.rest.length := by simp [hrest]; omega
    exact ((hi.setIpos hk).writeRange (hlen ▸ hcap)).finishRead len typ crc

/-- The length check finds one of two errors, both legal (rule R148, rule R163). -/
theorem lengthCheck_ne_invalidPaletteLength {p : Params} {n : Word} {e : ErrorName}
    (h : lengthCheck p n = some e) : e ≠ .invalidPaletteLength := by
  obtain ⟨rfl, -⟩ | ⟨rfl, -⟩ := lengthCheck_some h <;> decide

theorem CalcEffect.inv (h : CalcEffect s t) (hi : s.Inv) : t.Inv := by
  cases h with
  | badLength n e hn he => exact hi.raise (lengthCheck_ne_invalidPaletteLength he)
  | hashed w => exact hi.setCrcCalc w

theorem WriteEffect.inv (h : WriteEffect s t) (hi : s.Inv) : t.Inv := by
  cases h with
  | badLength n e hn he => exact hi.raise (lengthCheck_ne_invalidPaletteLength he)
  | emitted h => exact h.inv hi

theorem CommandEffect.inv {i : Instr} (h : CommandEffect s i t) (hi : s.Inv) : t.Inv := by
  cases h with
  | ignored => exact hi
  | sigdet _ h | sigscan _ h | sigwr _ h | rdchunk _ h | crccalc _ h | wrchunk _ h => exact h.inv hi

theorem HostEffect.inv {hs : HostStep} (h : HostEffect s hs t) (hi : s.Inv) : t.Inv := by
  cases h with
  | command _ h => exact h.inv hi
  | reserved => exact hi.raise (by decide)
  | reservedIgnored | writeIgnored | writeBeyond => exact hi
  | writeLength v => exact hi.setLength v
  | writeType v => exact hi.setType v
  | writeCrc v => exact hi.setCrc v
  | readRegister _ p | readBuffer _ p => exact hi.setHost p
  | writeBuffer off b hin => exact hi.write hin b
  | reset => exact hi.resetEvent

/-! ## Effects leave the parameters -/

theorem SearchEffect.par_eq (h : SearchEffect s t) : t.par = s.par := by cases h <;> rfl

theorem EmitEffect.par_eq (h : EmitEffect s t) : t.par = s.par := by cases h <;> rfl

theorem ReadEffect.par_eq (h : ReadEffect s t) : t.par = s.par := by
  cases h with
  | failed h => obtain ⟨k, e, -, -, rfl⟩ := h; rfl
  | record => rfl

theorem CalcEffect.par_eq (h : CalcEffect s t) : t.par = s.par := by cases h <;> rfl

theorem WriteEffect.par_eq (h : WriteEffect s t) : t.par = s.par := by
  cases h with
  | badLength => rfl
  | emitted h => exact h.par_eq

theorem CommandEffect.par_eq {i : Instr} (h : CommandEffect s i t) : t.par = s.par := by
  cases h with
  | ignored => rfl
  | sigdet _ h | sigscan _ h | sigwr _ h | rdchunk _ h | crccalc _ h | wrchunk _ h => exact h.par_eq

theorem HostEffect.par_eq {hs : HostStep} (h : HostEffect s hs t) : t.par = s.par := by
  cases h with
  | command _ h => exact h.par_eq
  | _ => rfl

end Sys2Proof.Machine
end

section
/-! The statements of 00_scope.md, settled. -/

namespace Sys2Proof.Machine

/-- Settles O14: a step has the effect of one host step, and every effect keeps the invariant. -/
theorem stepKeepsInvariant : Obligations.StepKeepsInvariant := by
  intro s t hi h
  obtain ⟨-, rfl⟩ | ⟨hs, rest, -, heff⟩ := step_effect h
  · exact hi
  · exact heff.inv (hi.setHost _)

/-- Settles O15: a step has the effect of one host step, and no effect changes the parameters. -/
theorem stepKeepsParameters : Obligations.StepKeepsParameters := by
  intro s t h
  obtain ⟨-, rfl⟩ | ⟨hs, rest, -, heff⟩ := step_effect h
  · rfl
  · exact heff.par_eq

/-- Settles O43: an `undef` cell below LENGTH leaves CRCCALC no list of bytes to hash. -/
theorem crccalcRefusesUndefCell : Obligations.CrccalcRefusesUndefCell := by
  intro s n t j h0 hn ht hmax hcap hj hu
  have hnone := allDefined_eq_none (none_mem_cells hj hu)
  simp [exec, execCrccalc, h0, calcCrc_eq_hashRecord hn ht hmax hcap, hashRecord, hnone]

/-- Settles O46: the record is its defined bytes up to the first `undef` cell, then that cell. -/
theorem wrchunkUndefCell : Obligations.WrchunkUndefCell := by
  intro s n t c ds h0 hn ht hc hmax hcap hlt hds hu
  obtain ⟨more, hcells⟩ := cells_eq_map_append_none hlt hds hu
  have hexec : exec .wrchunk s = emitCells ((wireBytes n ++ wireBytes t ++ ds).map some ++
      none :: (more ++ (wireBytes c).map some)) s := by
    simp [exec, execWrchunk, h0, writeRecord_eq_emitCells hn ht hc hmax hcap, recordCells, hcells]
  have hlen : (wireBytes n ++ wireBytes t ++ ds).length = 8 + ds.length := by simp; omega
  rw [← hlen, hexec]
  exact ⟨emitCells_undef_refused h0, fun l hl hle hfull => emitCells_append_full h0 hl hle hfull⟩

/-- Settles O1: both directions by the value of `be32` and of `byte_k`. -/
theorem bigEndianWords : Obligations.BigEndianWords :=
  ⟨be32_toNat, fun _ => ⟨rfl, rfl, rfl, rfl⟩, be32_byteOf⟩

/-- Settles O2: the input by what is left of it, the output by the room for one byte. -/
theorem streamPrimitives : Obligations.StreamPrimitives := by
  refine ⟨fun s h => ?_, fun s h => ?_, fun s b h => ?_, fun s b l hl h => ?_⟩
  · exact State.inByte_cons (by rw [State.rest, List.drop_eq_getElem_cons h])
  · exact State.inByte_nil (List.drop_eq_nil_of_le h)
  · exact if_pos ((Params.accepts_iff s).mpr h)
  · refine if_neg fun hacc => ?_
    have := (Params.accepts_iff s).mp hacc l hl
    omega

/-- Settles O3: `isAlpha` decides the two ranges. -/
theorem letterRanges : Obligations.LetterRanges := by
  intro b
  simp [isAlpha]

/-- Settles O13: `State.reset` is a launch whose capacity is in range. -/
theorem launchMeetsInvariant : Obligations.LaunchMeetsInvariant :=
  ⟨fun _ hp => State.Inv.launch hp, State.Inv.launch (by decide)⟩

/-- Settles O49: each index by its arm; a record register by what it holds, DBUFCAP by its range (rule R8). -/
theorem registerReads : Obligations.RegisterReads := by
  have hcap (s : State) (h : s.par.wellFormed = true) : (BitVec.ofNat 32 s.par.dbufCap).toNat = s.par.dbufCap := by
    have hmax : s.par.dbufCap ≤ 0x7FFFFFFF := of_decide_eq_true h
    rw [BitVec.toNat_ofNat, Nat.mod_eq_of_lt (by omega)]
  exact ⟨fun _ => rfl, fun s => ⟨s.statusWord, s.statusWord_toNat, rfl⟩,
    fun s _ h => congrArg _ (State.answerRegister_some h s),
    fun s _ h => congrArg _ (State.answerRegister_some h s),
    fun s _ h => congrArg _ (State.answerRegister_some h s),
    fun s h => ⟨_, congrArg _ (State.answerRegister_none h s)⟩,
    fun s h => ⟨_, congrArg _ (State.answerRegister_none h s)⟩,
    fun s h => ⟨_, congrArg _ (State.answerRegister_none h s)⟩,
    fun _ => rfl, fun s h => ⟨_, hcap s h, rfl⟩, fun _ => rfl⟩

/-- Settles O51: inside DBUF_CAP by what the cell holds, beyond it the other branch. -/
theorem bufferReads : Obligations.BufferReads := by
  intro s off
  exact ⟨fun hin _ hb => bufRead_of_read_eq_some hin hb,
    fun hin hu => ⟨Config.freeByte s.host.drawn, bufRead_of_read_eq_none hin hu⟩,
    fun hout => if_neg (Nat.not_lt.mpr hout)⟩

end Sys2Proof.Machine
end

section
/-! SUPPORT. No two words decode to one command. -/

namespace Sys2Proof

/-- An opcode selects a command only if it is that command's own (rule R76). -/
theorem eq_opcodeFor_of_commandOf {op : Byte} {i : Instr} (h : commandOf op = some i) : op = opcodeFor i := by
  unfold commandOf at h
  split_ifs at h with hop hop hop hop hop hop
  all_goals cases h; exact hop

/-- A word that decodes to a command is that command's own word (rule R75, rule R76). -/
theorem eq_encode_of_decode {w : Word} {i : Instr} (h : decode w = .command i) : w = encode i := by
  have hfields : zeroOf w ++ opcodeOf w = w :=
    (BitVec.extractLsb'_append_extractLsb'_eq_extractLsb' rfl).trans BitVec.extractLsb'_eq_self
  unfold decode at h
  split_ifs at h with hzero
  split at h
  · next j hop =>
    cases h
    rw [← hfields, not_not.mp hzero, eq_opcodeFor_of_commandOf hop]
    rfl
  · cases h

end Sys2Proof
end

section
/-! SUPPORT. What every command and every host step leaves as it was: the streams only move forward, and each writes
no component but its own. -/

namespace Sys2Proof.Machine

variable {s t : State}

/-! ## The streams -/

/-- The cursor is no smaller in `t` and OUT has only been appended to (rule R27, rule R36, rule R37). -/
def StreamsForward (s t : State) : Prop := s.ipos ≤ t.ipos ∧ ∃ bs, t.out = s.out ++ bs

/-- Streams that stand where they stood. -/
theorem StreamsForward.of_eq (hi : t.ipos = s.ipos) (ho : t.out = s.out) : StreamsForward s t :=
  ⟨hi.ge, [], by rw [ho, List.append_nil]⟩

theorem SearchEffect.forward (h : SearchEffect s t) : StreamsForward s t := by
  cases h with
  | answered k | notFound k => exact ⟨Nat.le_add_right .., [], (List.append_nil _).symm⟩

theorem EmitEffect.forward (h : EmitEffect s t) : StreamsForward s t := by
  cases h with
  | whole bs | cut bs => exact ⟨le_rfl, bs, rfl⟩

theorem ReadEffect.forward (h : ReadEffect s t) : StreamsForward s t := by
  cases h with
  | failed h =>
    obtain ⟨k, e, -, -, rfl⟩ := h
    exact ⟨Nat.le_add_right .., [], (List.append_nil _).symm⟩
  | record => exact ⟨Nat.le_add_right .., [], (List.append_nil _).symm⟩

theorem CalcEffect.forward (h : CalcEffect s t) : StreamsForward s t := by
  cases h with
  | badLength | hashed => exact .of_eq rfl rfl

theorem WriteEffect.forward (h : WriteEffect s t) : StreamsForward s t := by
  cases h with
  | badLength => exact .of_eq rfl rfl
  | emitted h => exact h.forward

theorem CommandEffect.forward {i : Instr} (h : CommandEffect s i t) : StreamsForward s t := by
  cases h with
  | ignored => exact .of_eq rfl rfl
  | sigdet _ h | sigscan _ h | sigwr _ h | rdchunk _ h | crccalc _ h | wrchunk _ h => exact h.forward

/-- No host access touches a stream but through a command, and the reset event does not (rule R221). -/
theorem HostEffect.forward {hs : HostStep} (h : HostEffect s hs t) : StreamsForward s t := by
  cases h with
  | command _ h => exact h.forward
  | _ => exact .of_eq rfl rfl

/-! ## What a command leaves as it was -/

/-- The row of rule R40 that a command keeps to: it changes no component but the ones named. -/
def CommandFrame (s t : State) : Instr → Prop
  | .sigdet | .sigscan => t = { s with err := t.err, matched := t.matched, ipos := t.ipos }
  | .sigwr | .wrchunk => t = { s with err := t.err, out := t.out }
  | .rdchunk =>
    t = { s with lengthReg := t.lengthReg, typeReg := t.typeReg, crcReg := t.crcReg, err := t.err,
                 ended := t.ended, dbuf := t.dbuf, ipos := t.ipos }
  | .crccalc => t = { s with crcCalc := t.crcCalc, err := t.err }

theorem CommandEffect.frame {i : Instr} (h : CommandEffect s i t) : CommandFrame s t i := by
  cases h with
  | ignored i => cases i <;> rfl
  | sigdet _ h | sigscan _ h | sigwr _ h | crccalc _ h => cases h <;> rfl
  | rdchunk _ h =>
    cases h with
    | failed h => obtain ⟨k, e, -, -, rfl⟩ := h; rfl
    | record => rfl
  | wrchunk _ h =>
    cases h with
    | badLength => rfl
    | emitted h => cases h <;> rfl

/-- Rule R30, of commands: MATCH is the signature commands' own. -/
theorem CommandEffect.matched_written {i : Instr} (h : CommandEffect s i t)
    (hne : t.matched ≠ s.matched) : i = .sigdet ∨ i = .sigscan := by
  have hf := h.frame
  cases i with
  | sigdet => exact .inl rfl
  | sigscan => exact .inr rfl
  | sigwr | rdchunk | crccalc | wrchunk => exact absurd (congrArg State.matched hf) hne

/-- Rule R31, of commands: END is RDCHUNK's own. -/
theorem CommandEffect.ended_written {i : Instr} (h : CommandEffect s i t)
    (hne : t.ended ≠ s.ended) : i = .rdchunk := by
  have hf := h.frame
  cases i with
  | rdchunk => rfl
  | sigdet | sigscan | sigwr | crccalc | wrchunk => exact absurd (congrArg State.ended hf) hne

/-- Rule R25, of commands: the register CRCCALC is written by its command alone, and not with an error. -/
theorem CommandEffect.crcCalc_written {i : Instr} (h : CommandEffect s i t)
    (hne : t.crcCalc ≠ s.crcCalc) : i = .crccalc ∧ t.err = 0 := by
  have hf := h.frame
  cases h with
  | ignored => exact absurd rfl hne
  | crccalc h0 h =>
    cases h with
    | badLength => exact absurd rfl hne
    | hashed => exact ⟨rfl, h0⟩
  | sigdet | sigscan | sigwr | rdchunk | wrchunk => exact absurd (congrArg State.crcCalc hf) hne

/-- Every error RDCHUNK can raise sets ERR (rule R132). -/
theorem FailedRead.err_ne_zero (h : FailedRead s t) : t.err ≠ 0 := by
  obtain ⟨k, e, -, he, rfl⟩ := h
  exact (ErrorName.code_legal (by rintro rfl; exact absurd he (by decide))).2

/-- A RDCHUNK that did not fail leaves every cell at or beyond the length it read (rule R129). -/
theorem ReadEffect.read_dbuf_beyond (h : ReadEffect s t) (h0 : t.err = 0) :
    ∃ n, t.lengthReg = some n ∧ ∀ j, n.toNat ≤ j → t.dbuf.read j = s.dbuf.read j := by
  cases h with
  | failed h => exact absurd h0 h.err_ne_zero
  | record len typ crc ds tail _ hlen =>
    refine ⟨len, rfl, fun j hj => ?_⟩
    exact (Memory.read_writeRange s.dbuf 0 ds j).trans (if_neg (by omega))

/-! ## What a host step leaves as it was -/

/-- A step leaves CRCCALC, MATCH and END, or it is the reset event or the issue of a command (rule R40). -/
theorem step_keeps_or_resets_or_issues (h : step s = .next t) :
    (t.crcCalc = s.crcCalc ∧ t.matched = s.matched ∧ t.ended = s.ended) ∨
    ∃ rest, s.host.pending = .reset :: rest ∨
      ∃ i, s.host.pending = .regWrite 0 (encode i) :: rest ∧
        CommandEffect (s.setHost { s.host with pending := rest }) i t := by
  obtain ⟨-, rfl⟩ | ⟨hs, rest, hp, heff⟩ := step_effect h
  · exact .inl ⟨rfl, rfl, rfl⟩
  · cases heff with
    | command hw heff => exact .inr ⟨rest, .inr ⟨_, eq_encode_of_decode hw ▸ hp, heff⟩⟩
    | reset => exact .inr ⟨rest, .inl hp⟩
    | _ => exact .inl ⟨rfl, rfl, rfl⟩

end Sys2Proof.Machine
end

section
/-! SUPPORT. The reads of RDCHUNK where the bytes they ask for are there. -/

namespace Sys2Proof.Machine

variable {s : State}

/-- What is left behind bytes that have been consumed (rule R36). -/
theorem State.rest_after {bs more : List Byte} (hrest : s.rest = bs ++ more) :
    (s.setIpos (s.ipos + bs.length)).rest = more := by
  rw [State.rest_setIpos_add, hrest, List.drop_left]

/-- A length in range (rule R122, rule R123). -/
theorem readLength_full {l0 l1 l2 l3 : Byte} {more : List Byte}
    (hrest : s.rest = l0 :: l1 :: l2 :: l3 :: more) (hmax : (be32 l0 l1 l2 l3).toNat ≤ Config.lenMax) :
    readLength s = readType (be32 l0 l1 l2 l3) (s.setIpos (s.ipos + 4)) := by
  rw [readLength, readField_full hrest, if_neg hmax.not_gt]

/-- A type of four letters (rule R124, rule R125). -/
theorem readType_full {len : Word} {t0 t1 t2 t3 : Byte} {more : List Byte}
    (hrest : s.rest = t0 :: t1 :: t2 :: t3 :: more)
    (halpha : (isAlpha t0 && isAlpha t1 && isAlpha t2 && isAlpha t3) = true) :
    readType len s = readData len (be32 t0 t1 t2 t3) (s.setIpos (s.ipos + 4)) := by
  rw [readType, readField_full hrest, if_pos halpha]

/-- Data that DBUF has room for (rule R126, rule R127). -/
theorem readData_full {len typ : Word} {ds more : List Byte} (hrest : s.rest = ds ++ more)
    (hlen : len.toNat = ds.length) (hcap : len.toNat ≤ s.par.dbufCap) :
    readData len typ s =
      readCrc len typ ((s.setIpos (s.ipos + ds.length)).setDbuf (s.dbuf.writeRange 0 ds)) := by
  rw [readData, if_neg hcap.not_gt, State.inBytes_eq, hrest, hlen]
  simp

/-- A crc, whatever it is (rule R128, rule R133). -/
theorem readCrc_full {len typ : Word} {c0 c1 c2 c3 : Byte} {more : List Byte}
    (hrest : s.rest = c0 :: c1 :: c2 :: c3 :: more) :
    readCrc len typ s =
      .next ((s.setIpos (s.ipos + 4)).finishRead len typ (be32 c0 c1 c2 c3)) := by
  rw [readCrc, readField_full hrest]

end Sys2Proof.Machine
end

section
/-! The statements of 10_state.md, settled. -/

namespace Sys2Proof.Machine

/-- Settles O16: a step has the effect of one host step, and every effect moves the streams forward. -/
theorem streamsMoveForwardOnly : Obligations.StreamsMoveForwardOnly := by
  intro s t h
  obtain ⟨-, rfl⟩ | ⟨hs, rest, -, heff⟩ := step_effect h
  · exact StreamsForward.of_eq rfl rfl
  · exact heff.forward

/-- Settles O20: each command's row is its frame; the cells of DBUF that RDCHUNK keeps are those its data does not
reach. -/
theorem commandsWriteOnlyTheirOwn : Obligations.CommandsWriteOnlyTheirOwn := by
  intro s t
  refine ⟨fun h => (exec_effect h).frame, fun h => (exec_effect h).frame, fun h => (exec_effect h).frame,
    fun h => ⟨(exec_effect h).frame, fun h0 => ?_⟩, fun h => ?_, fun h => ?_⟩
  · cases exec_effect h with
    | ignored _ hne => exact absurd h0 hne
    | rdchunk _ h => exact h.read_dbuf_beyond h0
  · have hf : CommandFrame s t .crccalc := (exec_effect h).frame
    exact ⟨hf, fun j => congrArg (·.dbuf.read j) hf⟩
  · have hf : CommandFrame s t .wrchunk := (exec_effect h).frame
    exact ⟨hf, fun j => congrArg (·.dbuf.read j) hf⟩

/-- Settles O21: by the effects each access can have. -/
theorem hostAccessesWriteOnlyTheirOwn : Obligations.HostAccessesWriteOnlyTheirOwn := by
  refine ⟨fun s t i h => ?_, fun s t off h => ?_, fun s t i v hi h => ?_, fun s t off b h => ?_⟩
  · cases perform_effect h with
    | readRegister => rfl
  · cases perform_effect h with
    | readBuffer => rfl
  · cases perform_effect h with
    | command | reserved | reservedIgnored => exact absurd rfl hi
    | writeIgnored => exact ⟨rfl, fun _ => rfl, fun _ => rfl, fun _ => rfl⟩
    | writeLength => exact ⟨rfl, fun h2 => absurd rfl h2, fun _ => rfl, fun _ => rfl⟩
    | writeType => exact ⟨rfl, fun _ => rfl, fun h3 => absurd rfl h3, fun _ => rfl⟩
    | writeCrc => exact ⟨rfl, fun _ => rfl, fun _ => rfl, fun h4 => absurd rfl h4⟩
  · cases perform_effect h with
    | writeBuffer => exact ⟨rfl, fun j hj => (Memory.read_write s.dbuf off.toNat j b).trans (if_neg hj)⟩
    | writeBeyond => exact ⟨rfl, fun _ _ => rfl⟩

/-- Settles O22: of the host steps that can write MATCH, a command is one of the two searches. -/
theorem matchWrittenOnlyBySignatureCommands : Obligations.MatchWrittenOnlyBySignatureCommands := by
  intro s t h hne
  obtain ⟨-, hm, -⟩ | ⟨rest, hp | ⟨i, hp, heff⟩⟩ := step_keeps_or_resets_or_issues h
  · exact absurd hm hne
  · exact ⟨rest, .inl hp⟩
  · obtain rfl | rfl := heff.matched_written hne
    · exact ⟨rest, .inr (.inl hp)⟩
    · exact ⟨rest, .inr (.inr hp)⟩

/-- Settles O23: of the host steps that can write END, a command is RDCHUNK. -/
theorem endWrittenOnlyByRdchunk : Obligations.EndWrittenOnlyByRdchunk := by
  intro s t h hne
  obtain ⟨-, -, he⟩ | ⟨rest, hp | ⟨i, hp, heff⟩⟩ := step_keeps_or_resets_or_issues h
  · exact absurd he hne
  · exact ⟨rest, .inl hp⟩
  · obtain rfl := heff.ended_written hne
    exact ⟨rest, .inr hp⟩

/-- Settles O24: of the host steps that can write CRCCALC, a command is CRCCALC past its checks. -/
theorem crcCalcWrittenOnlyByCrccalc : Obligations.CrcCalcWrittenOnlyByCrccalc := by
  intro s t h hne
  obtain ⟨hc, -, -⟩ | ⟨rest, hp | ⟨i, hp, heff⟩⟩ := step_keeps_or_resets_or_issues h
  · exact absurd hc hne
  · exact ⟨rest, .inl hp⟩
  · obtain ⟨rfl, h0⟩ := heff.crcCalc_written hne
    exact ⟨rest, .inr ⟨hp, h0⟩⟩

/-- Settles O30: the four reads in their order, each leaving the bytes of the next at the cursor. -/
theorem rdchunkReadsRecord : Obligations.RdchunkReadsRecord := by
  intro s l0 l1 l2 l3 t0 t1 t2 t3 c0 c1 c2 c3 ds tail h0 hrest hlen hmax hcap halpha
  refine ⟨s.dbuf.writeRange 0 ds, ?_, fun j hj => ?_, fun j hj => ?_⟩
  · simp only [List.append_assoc] at hrest
    have htype := State.rest_after hrest
    have hdata := State.rest_after htype
    have hcrc := State.rest_after hdata
    have hipos : s.ipos + 4 + 4 + ds.length + 4 = s.ipos + (12 + ds.length) := by omega
    calc exec .rdchunk s
      _ = readLength s := unlessSticky_clear h0 _
      _ = readType _ _ := readLength_full hrest (hlen ▸ hmax)
      _ = readData _ _ _ := readType_full htype halpha
      _ = readCrc _ _ _ := readData_full hdata hlen (hlen ▸ hcap)
      _ = _ := readCrc_full hcrc
      _ = _ := by rw [← hipos]; rfl
  · rw [Memory.read_writeRange, if_pos (by omega), Nat.sub_zero]
  · rw [Memory.read_writeRange, if_neg (by omega)]

/-- Settles O10: the values by definition; the reads are those of every state (rule R176). -/
theorem resetValues : Obligations.ResetValues := by
  obtain ⟨hread0, hread1, -, -, -, -, -, -, -, hread6, hread7⟩ := registerReads
  refine ⟨fun p => ?_, rfl, fun s => ⟨s.resetEvent, rfl, ?_⟩⟩
  · exact ⟨rfl, rfl, rfl, rfl, rfl, rfl, rfl, fun _ => rfl, rfl, rfl, rfl⟩
  · obtain ⟨w, hw, hstatus⟩ := hread1 s.resetEvent
    obtain rfl : w = 0 := BitVec.eq_of_toNat_eq hw
    exact ⟨rfl, rfl, rfl, rfl, rfl, rfl, rfl, fun _ => rfl, rfl, rfl, rfl,
      hstatus, hread0 _, hread7 _, hread6 s.resetEvent⟩

end Sys2Proof.Machine
end

section
/-! SUPPORT. What a step is, by what is pending; what the issue of a command word is; and the register accesses that do
not exist. -/

namespace Sys2Proof.Machine

variable {s : State}

/-- Idle (rule R220; log entry 8). -/
theorem step_of_pending_nil (hp : s.host.pending = []) : step s = .next s := by
  rw [step, performNext, hp]

/-- Busy: the oldest host step, on the state without it (rule R62; log entry 1). -/
theorem step_of_pending_cons {h : HostStep} {rest : List HostStep} (hp : s.host.pending = h :: rest) :
    step s = perform h (s.setHost { s.host with pending := rest }) := by
  rw [step, performNext, hp]

/-- A write to CMD of a word that decodes runs its command (rule R78). -/
theorem perform_regWrite_command {w : Word} {i : Instr} (hw : decode w = .command i) (s : State) :
    perform (.regWrite 0 w) s = exec i s := by
  change issue w s = exec i s
  rw [issue, hw]

/-- An index above 7 is none of the eight that can be read (rule R175). -/
theorem regRead_noRegister {i : Nat} (hi : 8 ≤ i) (s : State) : regRead i s = .refused (.noRegister i) := by
  unfold regRead
  split
  case h_9 => rfl
  all_goals omega

/-- An index above 7 is none of the eight that can be written (rule R175). -/
theorem regWrite_noRegister {i : Nat} (hi : 8 ≤ i) (v : Word) (s : State) :
    regWrite i v s = .refused (.noRegister i) := by
  unfold regWrite
  split
  case h_9 => rfl
  all_goals omega

end Sys2Proof.Machine
end

section
/-! The statements of 20_memory.md, settled. -/

namespace Sys2Proof.Machine

/-- Settles O8: the step performs the write to CMD, and that write runs the command. -/
theorem stepRunsDecodedCommand : Obligations.StepRunsDecodedCommand := by
  intro s w rest i hp hw
  calc step s
    _ = perform (.regWrite 0 w) (s.setHost { s.host with pending := rest }) := step_of_pending_cons hp
    _ = exec i (s.setHost { s.host with pending := rest }) := perform_regWrite_command hw _

/-- Settles O9: by whether a host step is pending. -/
theorem stepPerformsOldestHostStep : Obligations.StepPerformsOldestHostStep :=
  ⟨fun _ _ _ hp => step_of_pending_cons hp, fun _ hp => step_of_pending_nil hp⟩

/-- Settles O53: an index above 7 is no register's; the other three accesses are refused whatever the state. -/
theorem undefinedAccessesRefused : Obligations.UndefinedAccessesRefused :=
  ⟨fun s _ hi => regRead_noRegister hi s, fun s _ v hi => regWrite_noRegister hi v s,
    fun _ => rfl, fun _ => rfl, fun _ => rfl⟩

end Sys2Proof.Machine
end

section
/-! SUPPORT. Each command's word as a number, both ways through the decoder, and what the issue of a word that is no
command's does (rule R75 to rule R79). -/

namespace Sys2Proof

/-- The word of a command decodes to that command (rule R76). -/
theorem decode_encode (i : Instr) : decode (encode i) = .command i := by
  cases i with
  | sigdet => exact decode_sigdet
  | sigscan => exact decode_sigscan
  | sigwr => exact decode_sigwr
  | rdchunk => exact decode_rdchunk
  | crccalc => exact decode_crccalc
  | wrchunk => exact decode_wrchunk

/-- The word of a command is the opcode table's (rule R76). -/
theorem encode_toNat (i : Instr) : (encode i).toNat = Laws.tableMatch i := by
  cases i with
  | sigdet => exact Laws.CommandWord.sigdet.1
  | sigscan => exact Laws.CommandWord.sigscan.1
  | sigwr => exact Laws.CommandWord.sigwr.1
  | rdchunk => exact Laws.CommandWord.rdchunk.1
  | crccalc => exact Laws.CommandWord.crccalc.1
  | wrchunk => exact Laws.CommandWord.wrchunk.1

/-- The opcode table's words are 1 to 6 (rule R76). -/
theorem tableMatch_range (i : Instr) : 1 ≤ Laws.tableMatch i ∧ Laws.tableMatch i ≤ 6 := by
  cases i <;> decide

/-- A word with the value of a command's table row decodes to that command (rule R76). -/
theorem decode_of_toNat {w : Word} {i : Instr} (h : w.toNat = Laws.tableMatch i) : decode w = .command i := by
  rw [BitVec.eq_of_toNat_eq (h.trans (encode_toNat i).symm), decode_encode]

/-- A word outside 1 to 6 is no command's (rule R79). -/
theorem decode_ne_command {w : Word} (h : w.toNat = 0 ∨ 7 ≤ w.toNat) (i : Instr) : decode w ≠ .command i := by
  intro hw
  have hval : w.toNat = Laws.tableMatch i := (congrArg BitVec.toNat (eq_encode_of_decode hw)).trans (encode_toNat i)
  have := tableMatch_range i
  omega

end Sys2Proof

namespace Sys2Proof.Machine

variable {s : State} {w : Word}

/-- Under a sticky error no word written to CMD has an effect (rule R194). -/
theorem perform_regWrite_sticky (h0 : s.err ≠ 0) (w : Word) : perform (.regWrite 0 w) s = .next s := by
  change issue w s = .next s
  unfold issue
  split
  · exact exec_of_err_ne_zero _ h0
  · exact unlessSticky_set h0 _

/-- A word that is no command's raises `IllegalCommand` (rule R79). -/
theorem perform_regWrite_reserved (h0 : s.err = 0) (hw : w.toNat = 0 ∨ 7 ≤ w.toNat) :
    perform (.regWrite 0 w) s = .next (s.raise .illegalCommand) := by
  change issue w s = .next (s.raise .illegalCommand)
  unfold issue
  split
  · next i hi => exact absurd hi (decode_ne_command hw i)
  · exact unlessSticky_clear h0 _

/-- A word with the value of a command's table row runs that command (rule R76, rule R78). -/
theorem perform_regWrite_of_toNat {i : Instr} (hw : w.toNat = Laws.tableMatch i) (s : State) :
    perform (.regWrite 0 w) s = exec i s := perform_regWrite_command (decode_of_toNat hw) s

end Sys2Proof.Machine
end

section
/-! SUPPORT. CRCCALC and WRCHUNK by the outcome of their length checks, and a sequence of host steps. -/

namespace Sys2Proof.Machine

variable {s : State} {n : Word}

/-- A length above LEN_MAX, whatever DBUF_CAP is (rule R148, rule R163). -/
theorem lengthCheck_overflow (p : Params) (hmax : Config.lenMax < n.toNat) :
    lengthCheck p n = some .lengthOverflow := if_pos hmax

/-- A length in range that DBUF has no room for (rule R148, rule R163). -/
theorem lengthCheck_allocation {p : Params} (hmax : n.toNat ≤ Config.lenMax) (hcap : p.dbufCap < n.toNat) :
    lengthCheck p n = some .allocationFailure := (if_neg hmax.not_gt).trans (if_pos hcap)

/-- CRCCALC past its checks, its cells defined: crc32 of the type bytes and the data (rule R147). -/
theorem exec_crccalc_hashes {t : Word} {ds : List Byte} (h0 : s.err = 0) (hn : s.lengthReg = some n)
    (ht : s.typeReg = some t) (hmax : n.toNat ≤ Config.lenMax) (hcap : n.toNat ≤ s.par.dbufCap)
    (hlen : ds.length = n.toNat) (hds : ∀ j, j < n.toNat → s.dbuf.read j = ds[j]?) :
    exec .crccalc s = .next (s.setCrcCalc (crc32 (wireBytes t ++ ds))) := by
  calc exec .crccalc s
    _ = calcCrc s := unlessSticky_clear h0 _
    _ = hashRecord t (cells n.toNat s.dbuf) s := calcCrc_eq_hashRecord hn ht hmax hcap
    _ = _ := by rw [hashRecord, allDefined_eq_some.mpr (cells_eq_map hlen hds)]

/-- WRCHUNK where a length check finds an error (rule R163). -/
theorem exec_wrchunk_badLength {e : ErrorName} (h0 : s.err = 0) (hn : s.lengthReg = some n)
    (he : lengthCheck s.par n = some e) : exec .wrchunk s = .next (s.raise e) := by
  calc exec .wrchunk s
    _ = writeRecord s := unlessSticky_clear h0 _
    _ = .next (s.raise e) := by simp only [writeRecord, hn, he]

/-- The record's cells, when they hold the bytes `ds` (rule R81, rule R162). -/
theorem recordCells_map_some (len typ crc : Word) (ds : List Byte) :
    recordCells len typ crc (ds.map some) =
      (wireBytes len ++ wireBytes typ ++ ds ++ wireBytes crc).map some := by
  simp only [recordCells, List.map_append]

/-- WRCHUNK past its checks, its cells defined: the emission of the record (rule R162). -/
theorem exec_wrchunk_emits {t c : Word} {ds : List Byte} (h0 : s.err = 0) (hn : s.lengthReg = some n)
    (ht : s.typeReg = some t) (hc : s.crcReg = some c) (hmax : n.toNat ≤ Config.lenMax)
    (hcap : n.toNat ≤ s.par.dbufCap) (hlen : ds.length = n.toNat)
    (hds : ∀ j, j < n.toNat → s.dbuf.read j = ds[j]?) :
    exec .wrchunk s = emitCells ((wireBytes n ++ wireBytes t ++ ds ++ wireBytes c).map some) s := by
  calc exec .wrchunk s
    _ = writeRecord s := unlessSticky_clear h0 _
    _ = emitCells (recordCells n t c (cells n.toNat s.dbuf)) s :=
      writeRecord_eq_emitCells hn ht hc hmax hcap
    _ = _ := by rw [cells_eq_map hlen hds, recordCells_map_some]

/-- The record is its three fields and the data (rule R81). -/
theorem record_length (len typ crc : Word) (ds : List Byte) :
    (wireBytes len ++ wireBytes typ ++ ds ++ wireBytes crc).length = 12 + ds.length := by
  simp only [List.length_append, wireBytes_length]
  omega

/-- What stands in a record between its length and its crc (rule R81). -/
theorem record_between (len typ crc : Word) (ds tail : List Byte) :
    ((wireBytes len ++ wireBytes typ ++ ds ++ wireBytes crc ++ tail).take (8 + ds.length)).drop 4 =
      wireBytes typ ++ ds := by
  have hfront : (wireBytes len ++ (wireBytes typ ++ ds)).length = 8 + ds.length := by
    simp only [List.length_append, wireBytes_length]
    omega
  rw [List.append_assoc, List.append_assoc (wireBytes len), List.take_left' hfront,
    List.drop_left' (wireBytes_length len)]

/-- A sequence of host steps whose first one answers (rule R62). -/
theorem performAll_cons {h : HostStep} {rest : List HostStep} {t : State} (hp : perform h s = .next t) :
    performAll (h :: rest) s = performAll rest t := by
  rw [performAll, hp]

/-- The line that names a command runs it (rule R87). -/
theorem perform_lineOf (i : Instr) (s : State) : perform (lineOf i) s = exec i s :=
  perform_regWrite_command (decode_encode i) s

end Sys2Proof.Machine
end

section
/-! The statements of 30_encoding.md, settled. -/

namespace Sys2Proof.Machine

/-- Settles O5: the fields of the word are those of the command's own. -/
theorem commandWordUnique : Obligations.CommandWordUnique := fun _ _ hw => eq_encode_of_decode hw

/-- Settles O6: the words of the six commands are 1 to 6. -/
theorem reservedWordsRaiseIllegalCommand : Obligations.ReservedWordsRaiseIllegalCommand :=
  fun _ _ hw => ⟨decode_ne_command hw, fun h0 => perform_regWrite_reserved h0 hw⟩

/-- Settles O42: a successful RDCHUNK leaves the record it read, whose length has passed both checks. -/
theorem crccalcAfterRdchunk : Obligations.CrccalcAfterRdchunk := by
  intro s t h0 h ht
  cases exec_effect h with
  | ignored _ hne => exact absurd h0 hne
  | rdchunk _ heff =>
    cases heff with
    | failed hfail => exact absurd ht hfail.err_ne_zero
    | record len typ crc ds tail hrest hlen hmax hcap =>
      have hcells (j : Nat) (hj : j < len.toNat) : (s.dbuf.writeRange 0 ds).read j = ds[j]? := by
        rw [Memory.read_writeRange, if_pos (by omega), Nat.sub_zero]
      have hconsumed : s.ipos + (12 + ds.length) - s.ipos - 4 = 8 + ds.length := by omega
      refine (exec_crccalc_hashes ht rfl rfl hmax hcap hlen hcells).trans ?_
      simp only [State.finishRead_ipos, State.setDbuf_ipos, State.setIpos_ipos, hconsumed, hrest, record_between]
      rfl

/-- Settles O44: by the outcome of the length checks; past them the sink takes the whole record. -/
theorem wrchunkWritesRecord : Obligations.WrchunkWritesRecord := by
  intro s n h0 hn
  refine ⟨fun hmax => ?_, fun hmax hcap => ?_, fun hmax hcap t c ds ht hc hlen hds hroom => ?_⟩
  · exact exec_wrchunk_badLength h0 hn (lengthCheck_overflow s.par hmax)
  · exact exec_wrchunk_badLength h0 hn (lengthCheck_allocation hmax hcap)
  · have hfits : s.hasRoom (wireBytes n ++ wireBytes t ++ ds ++ wireBytes c).length := by
      rw [record_length, hlen]
      exact hroom
    exact (exec_wrchunk_emits h0 hn ht hc hmax hcap hlen hds).trans (emitCells_room hfits)

/-- Settles O54: CRCCALC hashes the record, the read gives its result to the host, and the write to CRC stores it. -/
theorem resignMakesCrcTrue : Obligations.ResignMakesCrcTrue := by
  intro s n t ds h0 hn ht hmax hcap hlen hds
  have hcalc : perform (lineOf .crccalc) s = .next (s.setCrcCalc (crc32 (wireBytes t ++ ds))) :=
    (perform_lineOf .crccalc s).trans (exec_crccalc_hashes h0 hn ht hmax hcap hlen hds)
  exact ⟨crc32 (wireBytes t ++ ds), _, _, performAll_cons hcalc, rfl, performAll_cons hcalc, rfl, h0, hn, ht, rfl⟩

/-- Settles O4: the six words are the encodings, and each decodes to its command. -/
theorem commandWordsDecode : Obligations.CommandWordsDecode :=
  ⟨decode_sigdet, decode_sigscan, decode_sigwr, decode_rdchunk, decode_crccalc, decode_wrchunk,
    fun i _ => decode_encode i⟩

/-- Settles O7: the sticky test first; a word outside 1 to 6 is reserved, one inside is its command's. -/
theorem commandIssueThreeArms : Obligations.CommandIssueThreeArms := by
  intro s w
  refine ⟨fun h0 => perform_regWrite_sticky h0 w, fun h0 hw => ?_, fun _ hzero => ?_⟩
  · exact perform_regWrite_reserved h0 (by omega)
  · have hrun (i : Instr) (hop : w.toNat % 256 = Laws.tableMatch i) : perform (.regWrite 0 w) s = exec i s :=
      perform_regWrite_of_toNat (by omega) s
    exact ⟨hrun .sigdet, hrun .sigscan, hrun .sigwr, hrun .rdchunk, hrun .crccalc, hrun .wrchunk⟩

end Sys2Proof.Machine
end

section
/-! SUPPORT. The codes each command can leave in ERR. -/

namespace Sys2Proof.Machine

variable {s t : State}

/-- ERR after a command that executed, 0 standing for no error (rule R103, R108, R113, R132, R149, R168). -/
def commandCodes : Instr → List (BitVec 4)
  | .sigdet | .sigscan => [0#4, 7#4]
  | .sigwr => [0#4, 8#4]
  | .rdchunk => [0#4, 1#4, 2#4, 3#4, 4#4, 5#4, 9#4]
  | .crccalc => [0#4, 2#4, 9#4]
  | .wrchunk => [0#4, 2#4, 8#4, 9#4]

theorem SearchEffect.err_mem (h : SearchEffect s t) (h0 : s.err = 0) : t.err ∈ [0#4, 7#4] := by
  cases h with
  | answered => exact List.mem_cons.mpr (.inl h0)
  | notFound => exact List.mem_cons_of_mem _ List.mem_cons_self

theorem EmitEffect.err_mem (h : EmitEffect s t) (h0 : s.err = 0) : t.err ∈ [0#4, 8#4] := by
  cases h with
  | whole => exact List.mem_cons.mpr (.inl h0)
  | cut => exact List.mem_cons_of_mem _ List.mem_cons_self

theorem FailedRead.err_mem (h : FailedRead s t) : t.err ∈ readErrors.map ErrorName.code := by
  obtain ⟨k, e, -, he, rfl⟩ := h
  exact List.mem_map_of_mem he

theorem lengthCheck_code_mem {p : Params} {n : Word} {e : ErrorName} (he : lengthCheck p n = some e) :
    e.code ∈ [2#4, 9#4] := by
  obtain ⟨rfl, -⟩ | ⟨rfl, -⟩ := lengthCheck_some he <;> decide

/-- A command that executed leaves one of its own codes. -/
theorem CommandEffect.err_mem {i : Instr} (h : CommandEffect s i t) (h0 : s.err = 0) :
    t.err ∈ commandCodes i := by
  cases h with
  | ignored _ hne => exact absurd h0 hne
  | sigdet _ h | sigscan _ h | sigwr _ h => exact h.err_mem h0
  | rdchunk _ h =>
    cases h with
    | failed hfail =>
      have hsub : readErrors.map ErrorName.code ⊆ commandCodes .rdchunk := by decide
      exact hsub hfail.err_mem
    | record => exact List.mem_cons.mpr (.inl h0)
  | crccalc _ h =>
    cases h with
    | badLength _ _ _ he => exact List.mem_cons_of_mem _ (lengthCheck_code_mem he)
    | hashed => exact List.mem_cons.mpr (.inl h0)
  | wrchunk _ h =>
    cases h with
    | badLength _ _ _ he =>
      have hsub : [2#4, 9#4] ⊆ commandCodes .wrchunk := by decide
      exact hsub (lengthCheck_code_mem he)
    | emitted hemit =>
      have hsub : [0#4, 8#4] ⊆ commandCodes .wrchunk := by decide
      exact hsub (hemit.err_mem h0)

end Sys2Proof.Machine
end

section
/-! SUPPORT. SIGDET by how much remains, SIGWR by the room there is, and SIGSCAN as the search of the source's reseek
description. -/

namespace Sys2Proof.Machine

variable {s : State}

/-! ## SIGDET -/

/-- How much remains of IN; nothing where the cursor stands past its end (rule R36). -/
theorem State.rest_length (s : State) : s.rest.length = s.par.input.length - s.ipos := List.length_drop

/-- SIGDET where 8 bytes remain (rule R101, rule R102). -/
theorem exec_sigdet_full (h0 : s.err = 0) (h8 : 8 ≤ s.rest.length) :
    exec .sigdet s = .next ((s.setIpos (s.ipos + 8)).setMatched (matchFlagOf (s.rest.take 8))) := by
  have hfull : ¬ (s.rest.take 8).length < 8 := by rw [List.length_take]; omega
  rw [exec, execSigdet, unlessSticky_clear h0, State.inBytes_eq, detectIn, if_neg hfull, Nat.min_eq_left h8]

/-- SIGDET where fewer than 8 bytes remain (rule R101, rule R103). -/
theorem exec_sigdet_short (h0 : s.err = 0) (h8 : s.rest.length < 8) :
    exec .sigdet s =
      .next (((s.setIpos (s.ipos + s.rest.length)).setMatched false).raise .signatureNotFound) := by
  have hshort : (s.rest.take 8).length < 8 := by rw [List.length_take]; omega
  rw [exec, execSigdet, unlessSticky_clear h0, State.inBytes_eq, detectIn, if_pos hshort, Nat.min_eq_right h8.le]

/-! ## SIGWR -/

theorem exec_sigwr (h0 : s.err = 0) : exec .sigwr s = emitCells (sig.map some) s := unlessSticky_clear h0 _

/-- SIGWR where the sink takes the whole signature (rule R111). -/
theorem exec_sigwr_room (h0 : s.err = 0) (hroom : s.hasRoom 8) :
    exec .sigwr s = .next (s.setOut (s.out ++ sig)) := (exec_sigwr h0).trans (emitCells_room hroom)

/-! ## The reseek search -/

/-- A signature that stands at an offset stands there whole (rule R106). -/
theorem offset_le_of_sig_at {l : List Byte} {k : Nat} (h : (l.drop k).take 8 = sig) : k + 8 ≤ l.length := by
  have := congrArg List.length h
  rw [List.length_take, List.length_drop, sig_length] at this
  omega

/-- The number the search starts to count from only shifts its answer. -/
theorem reseekScan_add (l : List Byte) (j k : Nat) :
    reseekScan l (j + k) = (reseekScan l k).map (j + ·) := by
  induction l generalizing k with
  | nil => rfl
  | cons b rest ih =>
    rw [reseekScan, reseekScan]
    split_ifs
    · rfl
    · exact ih (k + 1)

/-- The search answers the first offset the signature stands at (rule R106). -/
theorem reseekScan_eq_some {l : List Byte} {k : Nat} (hat : (l.drop k).take 8 = sig)
    (hfirst : ∀ k', k' < k → (l.drop k').take 8 ≠ sig) (j : Nat) : reseekScan l j = some (j + k) := by
  induction k generalizing l j with
  | zero =>
    cases l with
    | nil => cases hat
    | cons b rest => exact if_pos hat
  | succ k ih =>
    cases l with
    | nil => cases hat
    | cons b rest =>
      calc reseekScan (b :: rest) j
        _ = reseekScan rest (j + 1) := if_neg (hfirst 0 k.succ_pos)
        _ = some (j + 1 + k) := ih hat (fun k' hk' => hfirst (k' + 1) (Nat.succ_lt_succ hk')) (j + 1)
        _ = some (j + (k + 1)) := by rw [Nat.add_assoc, Nat.add_comm 1]

theorem reseekScan_eq_none {l : List Byte} (h : ∀ k, (l.drop k).take 8 ≠ sig) (j : Nat) :
    reseekScan l j = none := by
  induction l generalizing j with
  | nil => rfl
  | cons b rest ih => exact (if_neg (h 0)).trans (ih (fun k => h (k + 1)) (j + 1))

/-! ## SIGSCAN -/

/-- The state SIGSCAN ends in, by the offset in IN at which the search found the signature (rule R106). -/
def State.scanned (s : State) : Option Nat → State
  | some k => (s.setIpos (k + 8)).setMatched true
  | none => ((s.setIpos s.par.input.length).setMatched false).raise .signatureNotFound

@[simp] theorem State.scanned_setIpos (s : State) (v : Nat) (r : Option Nat) :
    (s.setIpos v).scanned r = s.scanned r := by cases r <;> rfl

/-- One more byte in the window leaves the search what it was: a window that drops its oldest byte starts one byte
further on, where the reseek search is after it has tried that window (rule R106, rule R109). -/
theorem reseekScan_slide {win : List Byte} (hlen : win.length ≤ 8) (hne : win ≠ sig) (b : Byte) (bs : List Byte)
    (p : Nat) : ∃ q, q + (slide win b).length = p + win.length + 1 ∧ (slide win b).length ≤ 8 ∧
      reseekScan (slide win b ++ bs) q = reseekScan (win ++ b :: bs) p := by
  unfold slide
  split_ifs with hfull
  · cases win with
    | nil => simp at hfull
    | cons c w =>
      have hw : (c :: w).length = 8 := by
        simp only [List.length_append, List.length_cons, List.length_nil] at hfull hlen ⊢
        omega
      have htake : ((c :: w) ++ b :: bs).take 8 ≠ sig := by rwa [List.take_left' hw]
      refine ⟨p + 1, by simp; omega, by simpa using hlen, ?_⟩
      calc reseekScan (((c :: w) ++ [b]).drop 1 ++ bs) (p + 1)
        _ = reseekScan (w ++ b :: bs) (p + 1) := by simp
        _ = reseekScan ((c :: w) ++ b :: bs) p := (if_neg htake).symm
  · exact ⟨p, by simp; omega, by omega, by rw [List.append_assoc, List.singleton_append]⟩

/-- The loop of SIGSCAN, its window starting at `p`, is the reseek search from `p` on (rule R109). -/
theorem scanLoop_eq {n p : Nat} {win : List Byte} (hin : s.ipos ≤ s.par.input.length) (hn : s.rest.length < n)
    (hlen : win.length ≤ 8) (hne : win ≠ sig) (hp : p + win.length = s.ipos) :
    scanLoop n win s = s.scanned (reseekScan (win ++ s.rest) p) := by
  induction n generalizing s win p with
  | zero => omega
  | succ n ih =>
    cases hr : s.rest with
    | nil =>
      have hend : s.ipos = s.par.input.length := by
        have := s.rest_length
        rw [hr, List.length_nil] at this
        omega
      have hnone (k : Nat) : (win.drop k).take 8 ≠ sig := by
        intro hat
        have hk : k = 0 := by have := offset_le_of_sig_at hat; omega
        subst hk
        exact hne ((List.take_of_length_le hlen).symm.trans hat)
      rw [scanLoop, State.inByte_nil hr, List.append_nil, reseekScan_eq_none hnone, State.scanned, ← hend,
        State.setIpos_self]
    | cons b bs =>
      obtain ⟨q, hq, hslide, hsearch⟩ := reseekScan_slide hlen hne b bs p
      have hbs : (s.setIpos (s.ipos + 1)).rest = bs := s.rest_after (bs := [b]) hr
      have hlt := s.rest_length
      rw [hr, List.length_cons] at hlt hn
      simp only [scanLoop, State.inByte_cons hr]
      rw [← hsearch]
      split_ifs with hsig
      · have hq8 : q + 8 = s.ipos + 1 := by rw [hsig, sig_length] at hq; omega
        rw [hsig, reseekScan_eq_some (k := 0) rfl nofun, State.scanned, Nat.add_zero, hq8]
      · rw [ih (p := q) (by simp; omega) (by rw [hbs]; omega) hslide hsig (by simp; omega), hbs,
          State.scanned_setIpos]

/-- SIGSCAN is the reseek search over what remains of IN (rule R106, rule R109). -/
theorem exec_sigscan (h0 : s.err = 0) (hin : s.ipos ≤ s.par.input.length) :
    exec .sigscan s = .next (s.scanned (reseekScan s.rest s.ipos)) := by
  rw [exec, execSigscan, unlessSticky_clear h0,
    scanLoop_eq hin (by rw [s.rest_length]; omega) (Nat.zero_le _) (by decide) rfl, List.nil_append]

end Sys2Proof.Machine
end

section
/-! The statements of 40_signature.md, settled. -/

namespace Sys2Proof.Machine

/-- Settles O19: the effect of each command leaves one of its own codes. -/
theorem commandErrorLists : Obligations.CommandErrorLists := by
  intro s t h0
  have listed {i : Instr} (h : exec i s = .next t) : t.err ∈ commandCodes i := (exec_effect h).err_mem h0
  exact ⟨listed, listed, listed, listed, listed, listed⟩

/-- Settles O25: by whether 8 bytes remain. -/
theorem sigdetResult : Obligations.SigdetResult := by
  intro s h0 hin
  have hrest := s.rest_length
  refine ⟨fun h8 => exec_sigdet_full h0 (by omega), fun h8 => ?_⟩
  have hend : s.ipos + s.rest.length = s.par.input.length := by omega
  rw [exec_sigdet_short h0 (by omega), hend]
  rfl

/-- Settles O26: SIGSCAN is the reseek search, which finds the first offset the signature stands at. -/
theorem sigscanResult : Obligations.SigscanResult := by
  intro s h0 hin
  have drop_rest (k : Nat) : s.rest.drop k = s.par.input.drop (s.ipos + k) := List.drop_drop
  refine ⟨fun k _ hat hfirst => ?_, fun hnone => ?_⟩
  · simp only [← drop_rest] at hat hfirst
    rw [exec_sigscan h0 hin, reseekScan_eq_some hat hfirst]
    rfl
  · have hnowhere (k : Nat) : (s.rest.drop k).take 8 ≠ sig := by
      intro hat
      have hk := offset_le_of_sig_at hat
      rw [s.rest_length] at hk
      exact hnone k (by omega) (drop_rest k ▸ hat)
    rw [exec_sigscan h0 hin, reseekScan_eq_none hnowhere]
    rfl

/-- Settles O27: counting offsets from the cursor or from the front of IN is the same search. -/
theorem sigscanAgreesWithReseek : Obligations.SigscanAgreesWithReseek := by
  intro s h0 hin
  have hscan : exec .sigscan s = .next (s.scanned ((reseekScan s.rest 0).map (s.ipos + ·))) := by
    rw [exec_sigscan h0 hin, ← reseekScan_add, Nat.add_zero]
  exact ⟨fun k hk => by rw [hscan, State.rest, hk]; rfl, fun hnone => by rw [hscan, State.rest, hnone]; rfl⟩

/-- Settles O28: the emission of the signature, whole or cut at the sink's limit. -/
theorem sigwrResult : Obligations.SigwrResult := fun _ h0 =>
  ⟨exec_sigwr_room h0, fun _ hl hle hlt => (exec_sigwr h0).trans (emitCells_full hl hle hlt)⟩

/-- Settles O29: the output of SIGWR is the signature, and SIGDET reads it whole. -/
theorem signatureRoundTrip : Obligations.SignatureRoundTrip := by
  intro s h0 hout hroom
  refine ⟨_, exec_sigwr_room h0 hroom, h0, fun u hu hipos hin => ?_⟩
  have hrest : u.rest = sig := by simp [State.rest, hipos, hin, hout]
  rw [exec_sigdet_full hu (by simp [hrest]), hrest, hipos]
  rfl

end Sys2Proof.Machine
end

section
/-! SUPPORT. The reads of RDCHUNK where they fail, each by the test that stops it. -/

namespace Sys2Proof.Machine

variable {s : State} {len typ : Word}

/-! ## The state a failed read leaves -/

/-- A read that fails from `j` bytes further on has consumed them too (rule R131). -/
theorem State.afterFailedRead_setIpos (s : State) (j k : Nat) (code : BitVec 4) :
    (s.setIpos (s.ipos + j)).afterFailedRead k code = s.afterFailedRead (j + k) code := by
  rw [State.afterFailedRead, State.afterFailedRead, ← Nat.add_assoc]
  rfl

/-- What stood in DBUF before the failure does not matter (rule R130). -/
theorem State.afterFailedRead_setDbuf (s : State) (m : Memory) (k : Nat) (code : BitVec 4) :
    (s.setDbuf m).afterFailedRead k code = s.afterFailedRead k code := rfl

/-! ## One lemma per test that fails -/

/-- A length cut short (rule R122). -/
theorem readLength_short (hshort : s.rest.length < 4) :
    readLength s = .next (s.afterFailedRead s.rest.length 1#4) := readField_short hshort _ _

/-- A length above LEN_MAX (rule R123). -/
theorem readLength_overflow {l0 l1 l2 l3 : Byte} {more : List Byte}
    (hrest : s.rest = l0 :: l1 :: l2 :: l3 :: more) (hmax : Config.lenMax < (be32 l0 l1 l2 l3).toNat) :
    readLength s = .next (s.afterFailedRead 4 2#4) := (readField_full hrest _ _).trans (if_pos hmax)

/-- Bit 7 of the first length byte is the range test (rule R123). -/
theorem lenMax_lt_be32_iff (b0 b1 b2 b3 : Byte) :
    Config.lenMax < (be32 b0 b1 b2 b3).toNat ↔ b0.getLsbD 7 = true := by
  have hbit : b0.getLsbD 7 = decide (2 ^ 7 ≤ b0.toNat) :=
    (BitVec.msb_eq_getLsbD_last b0).symm.trans (BitVec.msb_eq_decide b0)
  have h1 := b1.isLt
  have h2 := b2.isLt
  have h3 := b3.isLt
  rw [hbit, decide_eq_true_iff, be32_toNat, Config.lenMax]
  omega

/-- A type cut short, whatever its bytes are (rule R124). -/
theorem readType_short {more : List Byte} (hrest : s.rest = more) (hshort : more.length < 4) :
    readType len s = .next (s.afterFailedRead more.length 1#4) := by
  subst hrest
  exact readField_short hshort _ _

/-- A type with a byte that is no letter (rule R125). -/
theorem readType_invalid {t0 t1 t2 t3 : Byte} {more : List Byte}
    (hrest : s.rest = t0 :: t1 :: t2 :: t3 :: more)
    (halpha : ¬ (isAlpha t0 && isAlpha t1 && isAlpha t2 && isAlpha t3) = true) :
    readType len s = .next (s.afterFailedRead 4 3#4) := (readField_full hrest _ _).trans (if_neg halpha)

/-- Data that DBUF has no room for: not a byte of it is read (rule R126). -/
theorem readData_allocation (hcap : s.par.dbufCap < len.toNat) :
    readData len typ s = .next (s.afterFailedRead 0 9#4) := if_pos hcap

/-- Data cut short (rule R127). -/
theorem readData_short {more : List Byte} (hrest : s.rest = more) (hcap : len.toNat ≤ s.par.dbufCap)
    (hshort : more.length < len.toNat) :
    readData len typ s = .next (s.afterFailedRead more.length 4#4) := by
  rw [readData, if_neg hcap.not_gt, State.inBytes_eq, hrest, List.take_of_length_le hshort.le,
    Nat.min_eq_right hshort.le]
  exact if_pos hshort

/-- A crc cut short (rule R128). -/
theorem readCrc_short {more : List Byte} (hrest : s.rest = more) (hshort : more.length < 4) :
    readCrc len typ s = .next (s.afterFailedRead more.length 5#4) := by
  subst hrest
  exact readField_short hshort _ _

/-! ## RDCHUNK up to a test -/

/-- RDCHUNK past a length in range (rule R123). -/
theorem exec_rdchunk_length {l0 l1 l2 l3 : Byte} {more : List Byte} (h0 : s.err = 0)
    (hrest : s.rest = l0 :: l1 :: l2 :: l3 :: more) (hmax : (be32 l0 l1 l2 l3).toNat ≤ Config.lenMax) :
    exec .rdchunk s = readType (be32 l0 l1 l2 l3) (s.setIpos (s.ipos + 4)) :=
  (unlessSticky_clear h0 _).trans (readLength_full hrest hmax)

/-- RDCHUNK past a length in range and a type of four letters (rule R125). -/
theorem exec_rdchunk_type {l0 l1 l2 l3 t0 t1 t2 t3 : Byte} {more : List Byte} (h0 : s.err = 0)
    (hrest : s.rest = [l0, l1, l2, l3] ++ ([t0, t1, t2, t3] ++ more))
    (hmax : (be32 l0 l1 l2 l3).toNat ≤ Config.lenMax)
    (halpha : (isAlpha t0 && isAlpha t1 && isAlpha t2 && isAlpha t3) = true) :
    exec .rdchunk s = readData (be32 l0 l1 l2 l3) (be32 t0 t1 t2 t3) (s.setIpos (s.ipos + 8)) :=
  (exec_rdchunk_length h0 hrest hmax).trans (readType_full (State.rest_after hrest) halpha)

/-- What is left behind the length and the type (rule R81). -/
theorem State.rest_after_type {l0 l1 l2 l3 t0 t1 t2 t3 : Byte} {more : List Byte}
    (hrest : s.rest = [l0, l1, l2, l3] ++ ([t0, t1, t2, t3] ++ more)) :
    (s.setIpos (s.ipos + 8)).rest = more := State.rest_after (bs := [l0, l1, l2, l3, t0, t1, t2, t3]) hrest

end Sys2Proof.Machine
end

section
/-! SUPPORT. Two runs of RDCHUNK from states with the same input. -/

namespace Sys2Proof.Machine

variable {s u t v : State} {n : Nat} {len typ : Word}

/-- Data byte `j` stands in cell `j` (rule R127). -/
theorem Memory.read_writeRange_data {m : Memory} {ds : List Byte} {j : Nat} (hj : j < ds.length) :
    (m.writeRange 0 ds).read j = ds[j]? := by
  rw [Memory.read_writeRange, if_pos (by omega), Nat.sub_zero]

/-- All that RDCHUNK reads of a state, and the `n` data cells it has written, are the same in the two (rule R120). -/
structure SameReading (n : Nat) (s u : State) : Prop where
  ipos : u.ipos = s.ipos
  par : u.par = s.par
  err : u.err = s.err
  cells : ∀ j, j < n → u.dbuf.read j = s.dbuf.read j

/-- The two states hold the same record, END, ERR and cursor (rule R120). -/
def SameRecord (t v : State) : Prop :=
  v.lengthReg = t.lengthReg ∧ v.typeReg = t.typeReg ∧ v.crcReg = t.crcReg ∧ v.err = t.err ∧
    v.ended = t.ended ∧ v.ipos = t.ipos ∧
    ∀ n, t.lengthReg = some n → ∀ j, j < n.toNat → v.dbuf.read j = t.dbuf.read j

/-- Where the first run answers a next state, so does the second, with the same record. -/
def SameAnswer (r q : Result) : Prop := ∀ t, r = .next t → ∃ v, q = .next v ∧ SameRecord t v

theorem SameRecord.answer (h : SameRecord t v) : SameAnswer (.next t) (.next v) := by
  rintro _ ⟨⟩
  exact ⟨v, rfl, h⟩

theorem SameReading.rest_eq (h : SameReading n s u) : u.rest = s.rest := by
  rw [State.rest, State.rest, h.par, h.ipos]

/-- Both runs consume the same number of bytes. -/
theorem SameReading.advance (h : SameReading n s u) (k : Nat) :
    SameReading n (s.setIpos (s.ipos + k)) (u.setIpos (u.ipos + k)) :=
  { h with ipos := congrArg (· + k) h.ipos }

/-- Both runs store the same data. -/
theorem SameReading.writeRange (h : SameReading n s u) (ds : List Byte) :
    SameReading ds.length (s.setDbuf (s.dbuf.writeRange 0 ds)) (u.setDbuf (u.dbuf.writeRange 0 ds)) :=
  { h with
    cells := fun j hj => by
      rw [State.setDbuf_dbuf, State.setDbuf_dbuf, Memory.read_writeRange_data hj, Memory.read_writeRange_data hj] }

/-- Both runs fail, and nothing of either record is left (rule R130). -/
theorem SameReading.failRead (h : SameReading n s u) (e : ErrorName) :
    SameAnswer (.next (s.failRead e)) (.next (u.failRead e)) :=
  SameRecord.answer ⟨rfl, rfl, rfl, rfl, rfl, h.ipos, nofun⟩

/-- Both runs succeed, with all their data cells the same (rule R129). -/
theorem SameReading.finishRead (h : SameReading len.toNat s u) (crc : Word) :
    SameAnswer (.next (s.finishRead len typ crc)) (.next (u.finishRead len typ crc)) := by
  refine SameRecord.answer ⟨rfl, rfl, rfl, h.err, rfl, h.ipos, ?_⟩
  rintro _ ⟨⟩
  exact h.cells

/-- A four-byte field: both runs get the same four bytes, or the same short read (rule R83). -/
theorem SameReading.readField (h : SameReading n s u) {short : State → Result}
    {full : Byte → Byte → Byte → Byte → State → Result}
    (hshort : ∀ s u, SameReading n s u → SameAnswer (short s) (short u))
    (hfull : ∀ b0 b1 b2 b3 s u, SameReading n s u → SameAnswer (full b0 b1 b2 b3 s) (full b0 b1 b2 b3 u)) :
    SameAnswer (readField s short full) (readField u short full) := by
  obtain ⟨b0, b1, b2, b3, tail, hr⟩ | hr := s.rest_four
  · rw [readField_full hr, readField_full (h.rest_eq.trans hr)]
    exact hfull b0 b1 b2 b3 _ _ (h.advance 4)
  · rw [readField_short hr, readField_short (h.rest_eq ▸ hr), h.rest_eq]
    exact hshort _ _ (h.advance _)

theorem SameReading.readCrc (h : SameReading len.toNat s u) :
    SameAnswer (readCrc len typ s) (readCrc len typ u) :=
  h.readField (fun _ _ h => h.failRead _) fun _ _ _ _ _ _ h => h.finishRead _

theorem SameReading.readData (h : SameReading n s u) :
    SameAnswer (readData len typ s) (readData len typ u) := by
  by_cases hcap : s.par.dbufCap < len.toNat
  · rw [readData_allocation hcap, readData_allocation (h.par ▸ hcap)]
    exact (h.advance 0).failRead .allocationFailure
  obtain hshort | hfull := Nat.lt_or_ge s.rest.length len.toNat
  · rw [readData_short rfl (Nat.not_lt.mp hcap) hshort,
      readData_short h.rest_eq (h.par ▸ Nat.not_lt.mp hcap) hshort]
    exact (h.advance _).failRead .truncatedData
  · have hrest := (s.rest.take_append_drop len.toNat).symm
    have hlen : len.toNat = (s.rest.take len.toNat).length := (List.length_take_of_le hfull).symm
    rw [readData_full hrest hlen (Nat.not_lt.mp hcap),
      readData_full (h.rest_eq.trans hrest) hlen (h.par ▸ Nat.not_lt.mp hcap)]
    have hdata := (h.advance (s.rest.take len.toNat).length).writeRange (s.rest.take len.toNat)
    rw [← hlen] at hdata ⊢
    exact hdata.readCrc

theorem SameReading.readType (h : SameReading n s u) : SameAnswer (readType len s) (readType len u) := by
  refine h.readField (fun _ _ h => h.failRead _) fun _ _ _ _ _ _ h => ?_
  split_ifs
  · exact h.readData
  · exact h.failRead _

theorem SameReading.readLength (h : SameReading n s u) : SameAnswer (readLength s) (readLength u) := by
  refine h.readField (fun _ _ h => h.failRead _) fun _ _ _ _ _ _ h => ?_
  split_ifs
  · exact h.failRead _
  · exact h.readType

end Sys2Proof.Machine
end

section
/-! The statements of 41_chunk_reader.md, settled. -/

namespace Sys2Proof.Machine

/-- Settles O31: the length is cut short. -/
theorem rdchunkTruncatedLength : Obligations.RdchunkTruncatedLength :=
  fun _ h0 hshort => (unlessSticky_clear h0 _).trans (readLength_short hshort)

/-- Settles O32: the range test is bit 7 of the first byte, and nothing behind the length is looked at. -/
theorem rdchunkLengthOverflow : Obligations.RdchunkLengthOverflow :=
  fun _ l0 l1 l2 l3 _ h0 hrest =>
    ⟨lenMax_lt_be32_iff l0 l1 l2 l3, fun hmax => (unlessSticky_clear h0 _).trans (readLength_overflow hrest hmax)⟩

/-- Settles O33: past the length the type is cut short. -/
theorem rdchunkTruncatedType : Obligations.RdchunkTruncatedType := by
  intro s l0 l1 l2 l3 tail h0 hrest hmax hshort
  have htype : (s.setIpos (s.ipos + 4)).rest = tail := State.rest_after hrest
  rw [exec_rdchunk_length h0 hrest hmax, readType_short htype hshort, State.afterFailedRead_setIpos]

/-- Settles O34: past the length the type fails its test. -/
theorem rdchunkInvalidType : Obligations.RdchunkInvalidType := by
  intro s l0 l1 l2 l3 t0 t1 t2 t3 tail h0 hrest hmax hbad
  rw [List.append_assoc] at hrest
  have halpha : ¬ (isAlpha t0 && isAlpha t1 && isAlpha t2 && isAlpha t3) = true := by
    obtain h | h | h | h := hbad <;> simp [h]
  have htype : (s.setIpos (s.ipos + 4)).rest = [t0, t1, t2, t3] ++ tail := State.rest_after hrest
  rw [exec_rdchunk_length h0 hrest hmax, readType_invalid htype halpha, State.afterFailedRead_setIpos]

/-- Settles O35: past the type DBUF has no room for the data. -/
theorem rdchunkAllocationFailure : Obligations.RdchunkAllocationFailure := by
  intro s l0 l1 l2 l3 t0 t1 t2 t3 tail h0 hrest hmax hcap halpha
  rw [List.append_assoc] at hrest
  rw [exec_rdchunk_type h0 hrest hmax halpha, readData_allocation (s := s.setIpos (s.ipos + 8)) hcap,
    State.afterFailedRead_setIpos]

/-- Settles O36: past the type the data is cut short. -/
theorem rdchunkTruncatedData : Obligations.RdchunkTruncatedData := by
  intro s l0 l1 l2 l3 t0 t1 t2 t3 tail h0 hrest hmax hcap halpha hshort
  rw [List.append_assoc] at hrest
  have hdata := State.rest_after_type hrest
  rw [exec_rdchunk_type h0 hrest hmax halpha, readData_short hdata hcap hshort,
    State.afterFailedRead_setIpos]

/-- Settles O37: past the data the crc is cut short, and the data is lost with the record. -/
theorem rdchunkTruncatedCrc : Obligations.RdchunkTruncatedCrc := by
  intro s l0 l1 l2 l3 t0 t1 t2 t3 ds tail h0 hrest hlen hmax hcap halpha hshort
  simp only [List.append_assoc] at hrest
  have hdata := State.rest_after_type hrest
  have hcrc := State.rest_after hdata
  calc exec .rdchunk s
    _ = readData _ _ _ := exec_rdchunk_type h0 hrest (hlen ▸ hmax) halpha
    _ = readCrc _ _ _ := readData_full hdata hlen (hlen ▸ hcap)
    _ = _ := readCrc_short hcrc hshort
    _ = _ := by simp only [State.afterFailedRead_setDbuf, State.afterFailedRead_setIpos, Nat.add_assoc]

/-- Settles O38: a RDCHUNK that did not fail leaves ERR as it was. -/
theorem failedRdchunkLeavesNothing : Obligations.FailedRdchunkLeavesNothing := by
  intro s t h0 h hne
  cases exec_effect h with
  | ignored _ hsticky => exact absurd h0 hsticky
  | rdchunk _ heff =>
    cases heff with
    | record => exact absurd h0 hne
    | failed hfail =>
      obtain ⟨k, e, -, -, rfl⟩ := hfail
      exact ⟨rfl, rfl, rfl, fun _ => rfl, rfl⟩

/-- Settles O39: each of the four reads keeps the two runs together. -/
theorem rdchunkIgnoresOldRecord : Obligations.RdchunkIgnoresOldRecord := by
  intro s u t hs hu hipos hpar h
  have hsame : SameReading 0 s u := ⟨hipos, hpar, hu.trans hs.symm, nofun⟩
  obtain ⟨v, hv, hrecord⟩ := hsame.readLength t ((unlessSticky_clear hs _).symm.trans h)
  exact ⟨v, (unlessSticky_clear hu _).trans hv, hrecord⟩

/-- Settles O47: WRCHUNK emits the record, and RDCHUNK takes each word of it from its four bytes again. -/
theorem chunkRoundTrip : Obligations.ChunkRoundTrip := by
  intro s n t c ds h0 hn ht hc hmax hcap hlen hds halpha hroom
  obtain ⟨-, -, hwrite⟩ := wrchunkWritesRecord s n h0 hn
  refine ⟨_, wireBytes n ++ wireBytes t ++ ds ++ wireBytes c, hwrite hmax hcap t c ds ht hc hlen hds hroom, rfl,
    by rw [record_length, hlen], fun u tail hu hrest hcapu => ?_⟩
  have hletters : (isAlpha (byteOf 0 t) && isAlpha (byteOf 1 t) && isAlpha (byteOf 2 t) &&
      isAlpha (byteOf 3 t)) = true := by
    simpa [wireBytes, and_assoc] using halpha
  obtain ⟨m, hread, hcells, -⟩ := rdchunkReadsRecord u _ _ _ _ _ _ _ _ _ _ _ _ ds tail hu hrest
    (by rw [be32_byteOf, hlen]) (hlen ▸ hmax) (hlen ▸ hcapu) hletters
  rw [hlen] at hread hcells
  exact ⟨_, hread, hu, congrArg some (be32_byteOf n), congrArg some (be32_byteOf t), congrArg some (be32_byteOf c),
    hcells, rfl⟩

/-- Settles O48: a successful RDCHUNK leaves the record whose bytes it consumed, and WRCHUNK emits the record. -/
theorem passThroughIsVerbatim : Obligations.PassThroughIsVerbatim := by
  intro s t h0 h ht hroom
  cases exec_effect h with
  | ignored _ hsticky => exact absurd h0 hsticky
  | rdchunk _ heff =>
    cases heff with
    | failed hfail => exact absurd ht hfail.err_ne_zero
    | record len typ crc ds tail hrest hlen hmax hcap =>
      simp only [State.finishRead_ipos, State.setDbuf_ipos, State.setIpos_ipos, Nat.add_sub_cancel_left] at hroom ⊢
      obtain ⟨-, -, hwrite⟩ := wrchunkWritesRecord _ len ht rfl
      rw [hrest, List.take_left' (record_length len typ crc ds)]
      exact hwrite hmax hcap typ crc ds rfl rfl hlen (fun j hj => Memory.read_writeRange_data (hlen ▸ hj)) (hlen ▸ hroom)

end Sys2Proof.Machine
end

section
/-! SUPPORT. A shift step of `crc32` is linear and drops a clear bit 0, so the eight steps of a byte act on its low
eight bits by the table and shift the rest down. -/

namespace Sys2Proof.Machine

/-- A shift step drops a clear bit 0 (rule R141). -/
theorem crcShift_of_bit_clear {c : Word} (h : c.getLsbD 0 = false) : crcShift c = c >>> 1 := by
  rw [crcShift, h, if_neg Bool.false_ne_true]

/-- A shift step shifts by one and exclusive-ors the generator in where bit 0 was set (rule R141). -/
theorem crcShift_eq_xor (c : Word) : crcShift c = (c >>> 1) ^^^ bif c.getLsbD 0 then 0xEDB88320#32 else 0#32 := by
  cases h : c.getLsbD 0 with
  | false => exact (crcShift_of_bit_clear h).trans BitVec.xor_zero.symm
  | true => exact if_pos h

/-- A shift step is linear over exclusive or: the generator cancels where both words shift it in (rule R141). -/
theorem crcShift_xor (a b : Word) : crcShift (a ^^^ b) = crcShift a ^^^ crcShift b := by
  have hgen (x y : Bool) : (bif x ^^ y then 0xEDB88320#32 else 0#32) =
      (bif x then 0xEDB88320#32 else 0#32) ^^^ bif y then 0xEDB88320#32 else 0#32 := by
    cases x <;> cases y <;> rfl
  simp only [crcShift_eq_xor, BitVec.getLsbD_xor, hgen, BitVec.ushiftRight_xor_distrib]
  ac_rfl

/-- Eight shift steps are linear over exclusive or (rule R141). -/
theorem crcShift8_xor (a b : Word) : crcShift8 (a ^^^ b) = crcShift8 a ^^^ crcShift8 b := by
  simp only [crcShift8, crcShift_xor]

/-- The eight shift steps of a byte as an iteration (rule R141). -/
theorem crcShift8_eq_iterate (c : Word) : crcShift8 c = crcShift^[8] c := rfl

/-- As many shift steps as there are clear bits at the bottom drop those bits (rule R141). -/
theorem crcShift_iterate_of_low_clear {c : Word} {k : Nat} (h : ∀ i, i < k → c.getLsbD i = false) :
    crcShift^[k] c = c >>> k := by
  induction k with
  | zero => simp
  | succ k ih =>
    have hbit : (c >>> k).getLsbD 0 = false := by simpa using h k (by omega)
    rw [Function.iterate_succ_apply', ih fun i hi => h i (by omega), crcShift_of_bit_clear hbit,
      BitVec.shiftRight_add]

/-- A word is its low byte, exclusive-ored with the rest in its place. -/
theorem low_xor_high_eq (c : Word) : (c.setWidth 8).setWidth 32 ^^^ ((c >>> 8) <<< 8) = c := by
  ext i hi
  by_cases h8 : i < 8
  · simp [h8, hi]
  · simp [h8, hi, Nat.add_sub_cancel' (Nat.le_of_not_lt h8)]

/-- Eight shift steps look the low byte up in the table and shift the rest down (rule R142, rule R143). -/
theorem crcShift8_eq_crcTab_xor (c : Word) : crcShift8 c = crcTab (c.setWidth 8) ^^^ (c >>> 8) := by
  have hdrop : crcShift8 ((c >>> 8) <<< 8) = c >>> 8 := by
    calc crcShift8 ((c >>> 8) <<< 8)
      _ = crcShift^[8] ((c >>> 8) <<< 8) := crcShift8_eq_iterate _
      _ = ((c >>> 8) <<< 8) >>> 8 := crcShift_iterate_of_low_clear fun i hi => by simp [hi]
      _ = c >>> 8 := by
        ext i hi
        simpa using BitVec.lt_of_getLsbD
  conv_lhs => rw [← low_xor_high_eq c, crcShift8_xor, ← crcTab, hdrop]

/-- The byte step of the table form is the byte step of the bitwise form: the message byte reaches only the low byte
(rule R141, rule R143). -/
theorem crcByteByTable_eq_crcByte (c : Word) (b : Byte) : crcByteByTable c b = crcByte c b := by
  have hhigh : (c ^^^ b.setWidth 32) >>> 8 = c >>> 8 := by
    ext i hi
    simp
  rw [crcByte, crcShift8_eq_crcTab_xor, hhigh, crcByteByTable]

end Sys2Proof.Machine
end

section
/-! SUPPORT. CRCCALC where its length check fails, and where a command is refused: at an `undef` cell it would read,
and nowhere else in a legal state. -/

namespace Sys2Proof.Machine

variable {s : State} {r : Refusal}

/-- CRCCALC where a length check finds an error (rule R148). -/
theorem exec_crccalc_badLength {n : Word} {e : ErrorName} (h0 : s.err = 0) (hn : s.lengthReg = some n)
    (he : lengthCheck s.par n = some e) : exec .crccalc s = .next (s.raise e) := by
  calc exec .crccalc s
    _ = calcCrc s := unlessSticky_clear h0 _
    _ = .next (s.raise e) := by simp only [calcCrc, hn, he]

/-- Cells that cannot all be listed as bytes have an `undef` one among them (rule R16). -/
theorem none_mem_of_allDefined {l : List (Option Byte)} (h : allDefined l = none) : none ∈ l := by
  induction l with
  | nil => cases h
  | cons c rest ih =>
    cases c with
    | none => exact List.mem_cons_self
    | some b => exact List.mem_cons_of_mem _ (ih (Option.map_eq_none_iff.mp h))

/-- An emission is refused only for an `undef` cell (rule R161). -/
theorem emitCells_refused {l : List (Option Byte)} (h : emitCells l s = .refused r) :
    r = .undefCell ∧ none ∈ l := by
  induction l generalizing s with
  | nil => cases h
  | cons c rest ih =>
    cases c with
    | none => cases h; exact ⟨rfl, List.mem_cons_self⟩
    | some b =>
      rw [emitCells] at h
      split at h
      · cases h
      · exact (ih h).imp_right (List.mem_cons_of_mem _)

/-- The `undef` cells of a record are those of its data (rule R162). -/
theorem none_mem_recordCells {len typ crc : Word} {data : List (Option Byte)}
    (h : none ∈ recordCells len typ crc data) : none ∈ data := by
  simpa [recordCells] using h

/-- CRCCALC's body, LENGTH and TYPE defined, is refused only for an `undef` cell below LENGTH (rule R146). -/
theorem calcCrc_refused {n t : Word} (hn : s.lengthReg = some n) (ht : s.typeReg = some t)
    (h : calcCrc s = .refused r) : r = .undefCell ∧ none ∈ cells n.toNat s.dbuf := by
  simp only [calcCrc, hn, ht] at h
  split at h
  · cases h
  · rw [hashRecord] at h
    split at h
    next hnone => cases h; exact ⟨rfl, none_mem_of_allDefined hnone⟩
    next => cases h

/-- WRCHUNK's body, the record registers defined, is refused only for an `undef` cell below LENGTH (rule R161). -/
theorem writeRecord_refused {n t c : Word} (hn : s.lengthReg = some n) (ht : s.typeReg = some t)
    (hc : s.crcReg = some c) (h : writeRecord s = .refused r) :
    r = .undefCell ∧ none ∈ cells n.toNat s.dbuf := by
  simp only [writeRecord, hn, ht, hc] at h
  split at h
  · cases h
  · exact (emitCells_refused h).imp_right none_mem_recordCells

/-- A command that is refused is CRCCALC or WRCHUNK past the sticky test: the other four always answer (rule R204). -/
theorem exec_refused {i : Instr} (h : exec i s = .refused r) : s.err = 0 ∧
    (i = .crccalc ∧ calcCrc s = .refused r ∨ i = .wrchunk ∧ writeRecord s = .refused r) := by
  have h0 : s.err = 0 := by
    by_contra h0
    cases (exec_of_err_ne_zero i h0).symm.trans h
  refine ⟨h0, ?_⟩
  cases i with
  | sigdet => rw [exec, execSigdet, unlessSticky_clear h0] at h; cases h
  | sigscan => rw [exec, execSigscan, unlessSticky_clear h0] at h; cases h
  | sigwr => exact absurd (emitCells_refused ((exec_sigwr h0).symm.trans h)).2 (by decide)
  | rdchunk =>
    obtain ⟨t, ht, -⟩ := readLength_effect s
    cases ht.symm.trans ((unlessSticky_clear h0 _).symm.trans h)
  | crccalc => exact .inl ⟨rfl, (unlessSticky_clear h0 _).symm.trans h⟩
  | wrchunk => exact .inr ⟨rfl, (unlessSticky_clear h0 _).symm.trans h⟩

end Sys2Proof.Machine
end

section
/-! The statements of 42_crc.md, settled. -/

namespace Sys2Proof.Machine

/-- Settles O18: the invariant defines the record registers, so only an `undef` cell below LENGTH is left. -/
theorem commandRefusedOnlyForUndefCell : Obligations.CommandRefusedOnlyForUndefCell := by
  intro s i r hi h
  obtain ⟨h0, hbody⟩ := exec_refused h
  have hdefined := hi.recordDefined h0
  simp only [Option.isSome_iff_exists] at hdefined
  obtain ⟨⟨n, hn⟩, ⟨t, ht⟩, ⟨c, hc⟩⟩ := hdefined
  obtain ⟨hr, hnone⟩ : r = .undefCell ∧ none ∈ cells n.toNat s.dbuf := by
    obtain ⟨-, hcalc⟩ | ⟨-, hwrite⟩ := hbody
    · exact calcCrc_refused hn ht hcalc
    · exact writeRecord_refused hn ht hc hwrite
  obtain ⟨j, hj, hu⟩ := List.mem_map.mp hnone
  exact ⟨hr, hbody.imp And.left And.left, h0, n, j, hn, List.mem_range.mp hj, hu⟩

/-- Settles O40: the two forms fold the same byte step. -/
theorem crcTableFormAgrees : Obligations.CrcTableFormAgrees := by
  intro m
  have hstep : crcByteByTable = crcByte := funext₂ crcByteByTable_eq_crcByte
  rw [crc32ByTable, crc32, hstep]

/-- Settles O41: by the outcome of the length checks; past them the record is hashed. -/
theorem crccalcResult : Obligations.CrccalcResult := by
  intro s n h0 hn
  refine ⟨fun hmax => ?_, fun hmax hcap => ?_, fun hmax hcap t ds ht hlen hds => ?_⟩
  · exact exec_crccalc_badLength h0 hn (lengthCheck_overflow s.par hmax)
  · exact exec_crccalc_badLength h0 hn (lengthCheck_allocation hmax hcap)
  · exact exec_crccalc_hashes h0 hn ht hmax hcap hlen hds

end Sys2Proof.Machine
end

section
/-! The statements of 43_chunk_writer.md, settled. -/

namespace Sys2Proof.Machine

/-- Settles O45: past the length checks WRCHUNK emits the record, and the sink cuts the emission at its limit. -/
theorem wrchunkWriteFailure : Obligations.WrchunkWriteFailure := by
  intro s n t c ds l h0 hn ht hc hmax hcap hlen hds hl hle hlt
  have htight : l < s.out.length + (wireBytes n ++ wireBytes t ++ ds ++ wireBytes c).length := by
    rw [record_length, hlen]
    exact hlt
  exact (exec_wrchunk_emits h0 hn ht hc hmax hcap hlen hds).trans (emitCells_full hl hle htight)

end Sys2Proof.Machine
end

section
/-! SUPPORT. What the two host writes do: the register writes that are no command's, and a byte write to DBUF on either
side of its capacity (rule R177, rule R179). -/

namespace Sys2Proof.Machine

variable {s : State} {off : Word}

/-- A write to a register that the host can only read, or that is reserved, has no effect (rule R177). -/
theorem perform_regWrite_ignored {i : Nat} (hi : i = 1 ∨ i = 5 ∨ i = 6 ∨ i = 7) (v : Word) (s : State) :
    perform (.regWrite i v) s = .next s := by
  obtain rfl | rfl | rfl | rfl := hi <;> rfl

/-- A byte written below DBUF_CAP goes to its cell (rule R179). -/
theorem perform_bufWrite_inside (hin : off.toNat < s.par.dbufCap) (b : Byte) :
    perform (.bufWrite off b) s = .next (s.setDbuf (s.dbuf.write off.toNat b)) := if_pos hin

/-- A byte written at or beyond DBUF_CAP goes nowhere (rule R179). -/
theorem perform_bufWrite_beyond (hout : s.par.dbufCap ≤ off.toNat) (b : Byte) :
    perform (.bufWrite off b) s = .next s := if_neg hout.not_gt

end Sys2Proof.Machine
end

section
/-! The statements of 44_host_access.md, settled. -/

namespace Sys2Proof.Machine

/-- Settles O50: CMD issues its word, the three record registers are stored, and the other four writes are ignored. -/
theorem registerWrites : Obligations.RegisterWrites := by
  intro s v
  have hignored {i : Nat} (hi : i = 1 ∨ i = 5 ∨ i = 6 ∨ i = 7) := perform_regWrite_ignored hi v s
  refine ⟨?cmd, ?length, ?type, ?crc, ?status, ?crcCalc, ?cap, ?reserved⟩
  case cmd | length | type | crc => rfl
  case status | crcCalc | cap | reserved => exact hignored (by decide)

/-- Settles O52: by whether the offset is below DBUF_CAP; below it, by what a read gives after the write. -/
theorem bufferWrites : Obligations.BufferWrites := by
  intro s off b
  refine ⟨fun hin => ⟨s.dbuf.write off.toNat b, perform_bufWrite_inside hin b, ?_, fun j hj => ?_⟩,
    fun hout => perform_bufWrite_beyond hout b⟩
  · rw [Memory.read_write, if_pos rfl]
  · rw [Memory.read_write, if_neg hj]

end Sys2Proof.Machine
end

section
/-! SUPPORT. The sticky error keeps its code through every host step but reset, and every read of a register that
exists or of DBUF is answered (rule R176, rule R178, rule R194). -/

namespace Sys2Proof.Machine

variable {s t : State}

/-- Under a sticky error no command has an effect (rule R194). -/
theorem CommandEffect.eq_of_sticky {i : Instr} (h : CommandEffect s i t) (h0 : s.err ≠ 0) : t = s := by
  cases h with
  | ignored => rfl
  | sigdet hclear | sigscan hclear | sigwr hclear | rdchunk hclear | crccalc hclear | wrchunk hclear =>
    exact absurd hclear h0

/-- Under a sticky error no host step but reset writes ERR (rule R194). -/
theorem HostEffect.err_eq_of_sticky {hs : HostStep} (h : HostEffect s hs t) (h0 : s.err ≠ 0)
    (hreset : hs ≠ .reset) : t.err = s.err := by
  cases h with
  | command _ heff => rw [heff.eq_of_sticky h0]
  | reserved _ hclear => exact absurd hclear h0
  | reset => exact absurd rfl hreset
  | _ => rfl

/-- A read of one of the eight registers is answered, and only the host's port is written (rule R176). -/
theorem perform_regRead_answers {i : Nat} (hi : i < 8) (s : State) :
    ∃ p, perform (.regRead i) s = .next (s.setHost p) := by
  have hregister (v : Option Word) :
      ∃ p, (.next (s.answerRegister v) : Result) = .next (s.setHost p) := by
    obtain ⟨p, hp, -⟩ := State.answerRegister_frame v s
    exact ⟨p, congrArg _ hp⟩
  match i, hi with
  | 0, _ | 1, _ | 5, _ | 6, _ | 7, _ => exact ⟨_, rfl⟩
  | 2, _ => exact hregister s.lengthReg
  | 3, _ => exact hregister s.typeReg
  | 4, _ => exact hregister s.crcReg

/-- A read of DBUF is answered at every offset, and only the host's port is written (rule R178). -/
theorem perform_bufRead_answers (off : Word) (s : State) :
    ∃ p, perform (.bufRead off) s = .next (s.setHost p) := by
  by_cases hin : off.toNat < s.par.dbufCap
  · cases hcell : s.dbuf.read off.toNat with
    | some b => exact ⟨_, bufRead_of_read_eq_some hin hcell⟩
    | none => exact ⟨_, bufRead_of_read_eq_none hin hcell⟩
  · exact ⟨_, if_neg hin⟩

end Sys2Proof.Machine
end

section
/-! The statements of 60_exceptions.md, settled. -/

namespace Sys2Proof.Machine

/-- Settles O12: each code by definition. -/
theorem errorCodes : Obligations.ErrorCodes := ⟨rfl, rfl, rfl, rfl, rfl, rfl, rfl, rfl, rfl, rfl⟩

/-- Settles O17: no command faults, and a refusal would need an `undef` cell below LENGTH. -/
theorem everyCommandAnswers : Obligations.EveryCommandAnswers := by
  intro s i hi hcells
  cases hexec : exec i s with
  | next t => exact ⟨t, rfl⟩
  | fault f => cases f
  | refused r =>
    obtain ⟨-, -, -, n, j, hn, hj, hu⟩ := commandRefusedOnlyForUndefCell s i r hi hexec
    have hsome := hcells n hn j hj
    rw [hu] at hsome
    cases hsome

/-- Settles O11: nothing issued to CMD has an effect, and no other access looks at ERR. -/
theorem stickyError : Obligations.StickyError := by
  intro s h0
  refine ⟨fun i => exec_of_err_ne_zero i h0, perform_regWrite_sticky h0, ?keepsErr, ?registerWrites, ?bufferWrites,
    ?registerReads, ?bufferReads, h0⟩
  case keepsErr => exact fun _ _ hreset hp => (perform_effect hp).err_eq_of_sticky h0 hreset
  case registerWrites => exact fun _ => ⟨rfl, rfl, rfl⟩
  case bufferWrites => exact fun _ b hin => perform_bufWrite_inside hin b
  case registerReads => exact fun _ hi => perform_regRead_answers hi s
  case bufferReads => exact fun off => perform_bufRead_answers off s

end Sys2Proof.Machine
end
